-- ==== Sys2Proof/Word.lean ====
section
/-! DEFINITION. The word types of the block: 32-bit registers (spec/10_state.md R22, R26) and bytes. -/

namespace Sys2Proof

/-- The contents of one register of the host window (R26). -/
abbrev Word := BitVec 32

/-- A frame byte, a bus byte or a character code (R34, R87, R210). -/
abbrev Byte := BitVec 8

/-- A 7-segment bitmap, bits 6:0 of a frame byte (R92). -/
abbrev Glyph := BitVec 7

end Sys2Proof
end

