-- ==== Sys2Proof/Config.lean ====
section
/-! DEFINITION. What the spec leaves to the implementation (spec/00_scope.md R8) as plain data, the
conditions it puts on it (spec/40_brightness.md R131, spec/42_segment_encoder.md R169), and the values it
leaves free. A configuration stands in State and no step changes it (log 1), so a statement about every
state holds for every value of every open parameter. The reference values are in Machine/Reference.lean. -/

namespace Sys2Proof

/-- SEG_TABLE: one bitmap for each of the 40 mapped characters (R167). -/
structure SegTable where
  /-- `0` to `9`. -/
  digits : Vector Glyph 10
  /-- `A` to `Z`. -/
  letters : Vector Glyph 26
  hyphen : Glyph
  underscore : Glyph
  /-- The asterisk, whose glyph is the degree sign. -/
  asterisk : Glyph
  space : Glyph
  deriving DecidableEq, Repr

/-- What the source fixes of SEG_TABLE (R169). Seven bits are the type. The row 'some letters share a
bitmap' is met by the first field (log 17). -/
structure SegTable.Valid (t : SegTable) : Prop where
  /-- `SEG_TABLE('K') = SEG_TABLE('H')`. -/
  k_is_h : t.letters[10] = t.letters[7]
  /-- `SEG_TABLE('B') != SEG_TABLE('6')`. -/
  b_is_not_six : t.letters[1] ≠ t.digits[6]
  /-- `SEG_TABLE(' ') = 0x00`. -/
  space_blank : t.space = 0#7

/-- HB_Y and HB_DEN: the levels of the HEARTBEAT curve at its eight knots, each a count of 1/den of full
brightness (R8, R131). -/
structure HbCurve where
  levels : Vector Nat 8
  den : Nat
  deriving DecidableEq, Repr

/-- The constraints read from the names of the segments (R131). -/
structure HbCurve.Valid (c : HbCurve) : Prop where
  slow_dip : c.levels[1] < c.levels[0]
  further_dip : c.levels[2] < c.levels[1]
  sharp_rise : c.levels[3] > c.levels[2]
  fall_to_mid : c.levels[4] < c.levels[3]
  secondary_peak : c.levels[5] > c.levels[4]
  high_plateau : c.levels[6] > c.levels[5]
  slow_decay : c.levels[7] < c.levels[6]
  back_to_baseline : c.levels[7] = c.levels[0]
  den_pos : 0 < c.den
  fractions : ∀ i : Fin 8, c.levels[i] ≤ c.den

/-- The six formatter requests with their operands (R81, R95): what ROT_PLAN returns (R158). `α` is the
word itself, or where a planned word comes from. -/
inductive FmtCmd (α : Type) where
  | text (a0 : α)
  | int (leadingZero : Bool) (a0 : α)
  | small (a0 a1 : α)
  | fixs (dots : BitVec 4) (a0 a1 : α)
  | fix2 (dots : BitVec 4) (a0 : α)
  | time (colon : Bool) (a0 a1 : α)
  deriving DecidableEq, Repr, Inhabited

/-- The four sampled telemetry words (R33, R72). -/
structure Telemetry where
  charge : Word
  voltDv : Word
  currDa : Word
  capWh : Word
  deriving DecidableEq, Repr

/-- Where a planned operand comes from. -/
inductive PlanSource where
  | const (w : Word)
  | charge
  | voltDv
  | currDa
  | capWh
  deriving DecidableEq, Repr

/-- What a window of the rotation shows (R155). -/
inductive SlotKind where
  | label
  | value
  deriving DecidableEq, Repr

/-- The four rotating metrics (R155). -/
inductive Metric where
  | charge
  | voltage
  | current
  | capacity
  deriving DecidableEq, Repr

/-- ROT_PLAN as plain data: the eight windows as a table, labels before values, or any other pure
function of its arguments, known only by its number (log 8). -/
inductive RotPlan where
  | table (labels values : Vector (FmtCmd PlanSource) 4)
  | other (n : Nat)
  deriving DecidableEq, Repr

/-- The open parameters of R8 that are configuration. MAX_BRIGHTNESS and PRESENT are operands of
SYS.INIT; BW is the type of a brightness. -/
structure Config where
  hb : HbCurve
  seg : SegTable
  cmdDataWrite : Byte
  splitDataCmd : Bool
  /-- T_BIT, a delay in microseconds; no rule reads it (R8, R233). DESIGN CHOICE (log 23): a whole number of
  microseconds; R8 gives no number type, and R310's 'about one microsecond or less' allows a fraction. -/
  tBit : Nat
  dischargePositive : Bool
  rotPlan : RotPlan
  dispBrightReset : BitVec 3
  deriving DecidableEq, Repr

/-- A configuration the spec allows. -/
structure Config.Valid (c : Config) : Prop where
  hb : c.hb.Valid
  seg : c.seg.Valid

/-- FREE VALUE. `Draw()`: the level the environment puts on the data pin at the n-th sample, 'a one-bit
value chosen by the environment, under no law' (R12, R216, U5). Applied to State.drawn (log 5). -/
opaque Config.draw : Nat → Bool

/-- FREE VALUE. A rotation plan that is no table of the form above: 'a pure function of its arguments'
that returns one of the six FMT commands (R158, U13, log 8). -/
opaque Config.otherPlan : Nat → SlotKind → Metric → Telemetry → FmtCmd Word

end Sys2Proof
end

