-- ==== Sys2Proof/Syntax.lean ====
section
/-! DEFINITION. The commands of the block, one constructor per row of spec/opcode_table.json, with the
fields of MOD that the row leaves free (spec/30_encoding.md R81, R84), and the named enumerations
those fields and the input registers carry (R85). -/

namespace Sys2Proof

/-- AnimationMode (spec/10_state.md R29). -/
inductive AnimationMode where
  | classic
  | flow
  | heartbeat
  deriving DecidableEq, Repr

/-- AlertLevel (R30). -/
inductive AlertLevel where
  | normal
  | warning
  | error
  deriving DecidableEq, Repr

/-- HealthStatus (R31). -/
inductive HealthStatus where
  | ok
  | warning
  | error
  | updating
  deriving DecidableEq, Repr

/-- The 19 commands (R81). Operands in A0 and A1 are registers of the state, not fields. -/
inductive Instr where
  | sysInit (allocOk present : Bool)
  | sysTick
  | brtClassic
  | brtFlow
  | brtHeartbeat (alert : BitVec 2)
  | color (health : BitVec 2)
  | rot
  | enc (char : Byte)
  | fmtText
  | fmtInt (leadingZero : Bool)
  | fmtSmall
  | fmtFixs (dots : BitVec 4)
  | fmtFix2 (dots : BitVec 4)
  | fmtTime (colon : Bool)
  | busStart
  | busStop
  | busByte (byte : Byte)
  | dispWrite
  | dispBright (level : BitVec 3)
  deriving DecidableEq, Repr

/-- The spelling of a command in the spec (R81, R96). -/
def Instr.mnemonic : Instr → String
  | .sysInit _ _ => "SYS.INIT"
  | .sysTick => "SYS.TICK"
  | .brtClassic => "BRT.CLASSIC"
  | .brtFlow => "BRT.FLOW"
  | .brtHeartbeat _ => "BRT.HEARTBEAT"
  | .color _ => "COLOR"
  | .rot => "ROT"
  | .enc _ => "ENC"
  | .fmtText => "FMT.TEXT"
  | .fmtInt _ => "FMT.INT"
  | .fmtSmall => "FMT.SMALL"
  | .fmtFixs _ => "FMT.FIXS"
  | .fmtFix2 _ => "FMT.FIX2"
  | .fmtTime _ => "FMT.TIME"
  | .busStart => "BUS.START"
  | .busStop => "BUS.STOP"
  | .busByte _ => "BUS.BYTE"
  | .dispWrite => "DISP.WRITE"
  | .dispBright _ => "DISP.BRIGHT"

end Sys2Proof
end

