-- ==== Sys2Proof/WellFormed.lean ====
section
/-! DEFINITION. Which terms of Instr are commands of the spec: every field is exactly as wide as its
MOD field, so the one value to exclude is alert = 3 of BRT.HEARTBEAT (spec/30_encoding.md R83, R89). -/

namespace Sys2Proof

/-- Every field value but the reserved alert of BRT.HEARTBEAT (word 0x100E) is a command (R83, R89). -/
def Instr.wellFormed : Instr → Bool
  | .sysInit _ _ => true
  | .sysTick => true
  | .brtClassic => true
  | .brtFlow => true
  | .brtHeartbeat alert => alert != 3#2
  | .color _ => true
  | .rot => true
  | .enc _ => true
  | .fmtText => true
  | .fmtInt _ => true
  | .fmtSmall => true
  | .fmtFixs _ => true
  | .fmtFix2 _ => true
  | .fmtTime _ => true
  | .busStart => true
  | .busStop => true
  | .busByte _ => true
  | .dispWrite => true
  | .dispBright _ => true

end Sys2Proof
end

