-- ==== Sys2Proof/Decode.lean ====
section
/-! DEFINITION. The command word (spec/30_encoding.md §1 to §4): the decoder, total on every word, which
rejects a reserved word by name, and the encoder written from the same table. -/

namespace Sys2Proof

/-- Why a command word is reserved. -/
inductive DecodeError where
  /-- An OP with no row in the table (R88). -/
  | reservedOp
  /-- A 1 in a MOD bit that must be zero (R81, R90). -/
  | mustBeZero
  /-- Mode 3 in OP 0x10 (R89). -/
  | reservedMode
  /-- Alert 3 in BRT.HEARTBEAT, or an alert in BRT.CLASSIC or BRT.FLOW (R82, R89). -/
  | reservedAlert
  deriving DecidableEq, Repr

/-- OP, bits 15:8 of the command word (R80). -/
def opField (w : BitVec 16) : BitVec 8 := w.extractLsb' 8 8

/-- MOD, bits 7:0 of the command word (R80). -/
def modField (w : BitVec 16) : BitVec 8 := w.extractLsb' 0 8

/-- The command `i` where the MOD bits that must be zero are (R81, R90). -/
def whenZero {n : Nat} (zero : BitVec n) (i : Instr) : Except DecodeError Instr :=
  if zero = 0#n then .ok i else .error .mustBeZero

/-- OP 0x10: MOD[1:0] is the mode, MOD[3:2] the alert, MOD[7:4] zero (R81, R82, R89). -/
def decodeBrt (m : BitVec 8) : Except DecodeError Instr :=
  let mode := m.extractLsb' 0 2
  let alert := m.extractLsb' 2 2
  if m.extractLsb' 4 4 ≠ 0#4 then .error .mustBeZero
  else if mode = 0#2 then (if alert = 0#2 then .ok .brtClassic else .error .reservedAlert)
  else if mode = 1#2 then (if alert = 0#2 then .ok .brtFlow else .error .reservedAlert)
  else if mode = 2#2 then
    (if alert = 3#2 then .error .reservedAlert else .ok (.brtHeartbeat alert))
  else .error .reservedMode

/-- A decoder reads OP, then the MOD layout of that OP (R80, R81, R83). -/
def decode (w : BitVec 16) : Except DecodeError Instr :=
  let m := modField w
  match (opField w).toNat with
  | 0x01 => whenZero (m.extractLsb' 2 6) (.sysInit (m.getLsbD 0) (m.getLsbD 1))
  | 0x02 => whenZero m .sysTick
  | 0x10 => decodeBrt m
  | 0x18 => whenZero (m.extractLsb' 2 6) (.color (m.extractLsb' 0 2))
  | 0x1C => whenZero m .rot
  | 0x20 => .ok (.enc m)
  | 0x30 => whenZero m .fmtText
  | 0x31 => whenZero (m.extractLsb' 1 7) (.fmtInt (m.getLsbD 0))
  | 0x32 => whenZero m .fmtSmall
  | 0x33 => whenZero (m.extractLsb' 4 4) (.fmtFixs (m.extractLsb' 0 4))
  | 0x34 => whenZero (m.extractLsb' 4 4) (.fmtFix2 (m.extractLsb' 0 4))
  | 0x35 => whenZero (m.extractLsb' 1 7) (.fmtTime (m.getLsbD 0))
  | 0x40 => whenZero m .busStart
  | 0x41 => whenZero m .busStop
  | 0x42 => .ok (.busByte m)
  | 0x48 => whenZero m .dispWrite
  | 0x49 => whenZero (m.extractLsb' 3 5) (.dispBright (m.extractLsb' 0 3))
  | _ => .error .reservedOp

/-- The command word in a 32-bit write to CMD: 'Bits 31:16 of the word written to CMD are ignored' (R80). -/
def commandWord (w : Word) : BitVec 16 := w.setWidth 16

/-- The word of a command: OP in bits 15:8, MOD in bits 7:0 (R80, R81, R83). -/
def encode : Instr → BitVec 16
  | .sysInit allocOk present => 0x01#8 ++ (0#6 ++ BitVec.ofBool present ++ BitVec.ofBool allocOk)
  | .sysTick => 0x02#8 ++ 0#8
  | .brtClassic => 0x10#8 ++ (0#4 ++ 0#2 ++ 0#2)
  | .brtFlow => 0x10#8 ++ (0#4 ++ 0#2 ++ 1#2)
  | .brtHeartbeat alert => 0x10#8 ++ (0#4 ++ alert ++ 2#2)
  | .color health => 0x18#8 ++ (0#6 ++ health)
  | .rot => 0x1C#8 ++ 0#8
  | .enc char => 0x20#8 ++ char
  | .fmtText => 0x30#8 ++ 0#8
  | .fmtInt leadingZero => 0x31#8 ++ (0#7 ++ BitVec.ofBool leadingZero)
  | .fmtSmall => 0x32#8 ++ 0#8
  | .fmtFixs dots => 0x33#8 ++ (0#4 ++ dots)
  | .fmtFix2 dots => 0x34#8 ++ (0#4 ++ dots)
  | .fmtTime colon => 0x35#8 ++ (0#7 ++ BitVec.ofBool colon)
  | .busStart => 0x40#8 ++ 0#8
  | .busStop => 0x41#8 ++ 0#8
  | .busByte byte => 0x42#8 ++ byte
  | .dispWrite => 0x48#8 ++ 0#8
  | .dispBright level => 0x49#8 ++ (0#5 ++ level)

/-- One row of the match-and-mask table (R83). -/
structure TableRow where
  mnemonic : String
  pattern : BitVec 16
  mask : BitVec 16
  deriving DecidableEq, Repr

/-- The word selects the row's command: `(w & mask) == match` (R83). -/
def TableRow.selects (r : TableRow) (w : BitVec 16) : Bool := (w &&& r.mask) == r.pattern

/-- The match-and-mask table as the spec gives it, row by row (R83). -/
def commandTable : List TableRow :=
  [ ⟨"SYS.INIT", 0x0100#16, 0xFFFC#16⟩, ⟨"SYS.TICK", 0x0200#16, 0xFFFF#16⟩,
    ⟨"BRT.CLASSIC", 0x1000#16, 0xFFFF#16⟩, ⟨"BRT.FLOW", 0x1001#16, 0xFFFF#16⟩,
    ⟨"BRT.HEARTBEAT", 0x1002#16, 0xFFF3#16⟩, ⟨"COLOR", 0x1800#16, 0xFFFC#16⟩,
    ⟨"ROT", 0x1C00#16, 0xFFFF#16⟩, ⟨"ENC", 0x2000#16, 0xFF00#16⟩ ] ++
  [ ⟨"FMT.TEXT", 0x3000#16, 0xFFFF#16⟩, ⟨"FMT.INT", 0x3100#16, 0xFFFE#16⟩,
    ⟨"FMT.SMALL", 0x3200#16, 0xFFFF#16⟩, ⟨"FMT.FIXS", 0x3300#16, 0xFFF0#16⟩,
    ⟨"FMT.FIX2", 0x3400#16, 0xFFF0#16⟩, ⟨"FMT.TIME", 0x3500#16, 0xFFFE#16⟩ ] ++
  [ ⟨"BUS.START", 0x4000#16, 0xFFFF#16⟩, ⟨"BUS.STOP", 0x4100#16, 0xFFFF#16⟩,
    ⟨"BUS.BYTE", 0x4200#16, 0xFF00#16⟩, ⟨"DISP.WRITE", 0x4800#16, 0xFFFF#16⟩,
    ⟨"DISP.BRIGHT", 0x4900#16, 0xFFF8#16⟩ ]

/-- The instruction the decoder reads from a word numbered as spec/opcode_table.json numbers it: the
low `nbits` bits of `w`, zeros above, laid out as the one 16-bit command word. -/
def decodeTableWord (nbits w : Nat) : Option Instr :=
  match decode (BitVec.ofNat 16 (w % 2 ^ nbits)) with
  | .ok i => some i
  | .error _ => none

end Sys2Proof
end

