-- ==== Sys2Proof/Machine/Reference.lean ====
section
/-! DEFINITION. The reference values of the open parameters (spec/00_scope.md R8): the spec's own choice,
used by its test vectors, 'and has no other standing'. State.reset takes them (DESIGN CHOICE, log 1). -/

namespace Sys2Proof

/-- The reference SEG_TABLE (spec/42_segment_encoder.md R170). -/
def SegTable.reference : SegTable where
  digits := #v[0x3F#7, 0x06#7, 0x5B#7, 0x4F#7, 0x66#7, 0x6D#7, 0x7D#7, 0x07#7, 0x7F#7, 0x6F#7]
  letters :=
    #v[0x77#7, 0x7C#7, 0x39#7, 0x5E#7, 0x79#7, 0x71#7, 0x3D#7, 0x76#7, 0x30#7, 0x1E#7,
      0x76#7, 0x38#7, 0x37#7, 0x54#7, 0x3F#7, 0x73#7, 0x67#7, 0x50#7, 0x6D#7, 0x78#7,
      0x3E#7, 0x1C#7, 0x7E#7, 0x76#7, 0x6E#7, 0x5B#7]
  hyphen := 0x40#7
  underscore := 0x08#7
  asterisk := 0x63#7
  space := 0x00#7

/-- The reference HEARTBEAT levels (R131). -/
def HbCurve.reference : HbCurve where
  levels := #v[20, 15, 10, 90, 40, 60, 70, 20]
  den := 100

/-- The reference ROT_PLAN: `SOC`, `VOLT`, `CURR`, `CAP` by FMT.TEXT, and the four telemetry words by
FMT.INT with leading_zero = 0 (spec/41_color_rotator.md R158). -/
def RotPlan.reference : RotPlan :=
  .table
    #v[.text (.const 0x00434F53#32), .text (.const 0x544C4F56#32),
      .text (.const 0x52525543#32), .text (.const 0x00504143#32)]
    #v[.int false .charge, .int false .voltDv, .int false .currDa, .int false .capWh]

/-- The reference values of R8; T_BIT has none ('not used by any rule') and is given 1. -/
def Config.reference : Config where
  hb := .reference
  seg := .reference
  cmdDataWrite := 0x40#8
  splitDataCmd := false
  tBit := 1
  dischargePositive := true
  rotPlan := .reference
  dispBrightReset := 7#3

end Sys2Proof
end

