-- ==== Sys2Proof/Machine/State.lean ====
section
/-! DEFINITION. The state of the block as plain data (spec/10_state.md): its registers, its pins, the
trace of its outputs, the input registers the environment drives, the configuration, and the actions of
the host and the environment still to come. -/

namespace Sys2Proof.Machine

/-- DIO_DIR (R39): `out` when the block drives the data line. -/
inductive Dir where
  | out
  | inp
  deriving DecidableEq, Repr

/-- The pins (R39). A level is a Bool, true for 1. -/
structure Pins where
  clk : Bool
  dioDir : Dir
  dioOut : Bool
  deriving DecidableEq, Repr

/-- The idle levels of the bus: CLK = 1, DIO_DIR = OUT, DIO_OUT = 1 (R39). -/
def Pins.idle : Pins := ⟨true, .out, true⟩

/-- The output events (R40). -/
inductive Event where
  | clk (v : Bool)
  | dio (v : Bool)
  | dioDir (d : Dir)
  | sample (v : Bool)
  | ledSet (r g b : Byte)
  | ledShow
  deriving DecidableEq, Repr

/-- Which registers hold a value in the spec's sense: false from power-on until the register is first
written (R23, R42, U1). LAST_S needs no mark: LAST_VALID is one (R36). The machine never refuses on these marks, the strict machine does (log 4). -/
structure Held where
  a0 : Bool
  a1 : Bool
  res : Bool
  frame : Bool
  brt : Bool
  led : Bool
  maxBrightness : Bool
  bright : Bool
  ack : Bool
  pins : Bool
  deriving DecidableEq, Repr

/-- After power-on no register of R42's 'unspecified' rows holds a value. -/
def Held.none : Held := ⟨false, false, false, false, false, false, false, false, false, false⟩

/-- The input registers, which the environment drives (R20, R28 to R33). -/
inductive InputReg where
  | nowMs
  | mode
  | alert
  | health
  | powerW
  | charge
  | voltDv
  | currDa
  | capWh
  deriving DecidableEq, Repr

/-- The width of a host access; only `word` exists (R60, R67). -/
inductive AccessSize where
  | byte
  | half
  | word
  deriving DecidableEq, Repr

/-- What the host and the environment do to the block, one at a time (R20, R60, R68, R71, log 6). -/
inductive Action where
  /-- The host writes `data` at offset `off` of the window; a write to CMD runs a command. -/
  | hostWrite (size : AccessSize) (off : Byte) (data : Word)
  /-- The host reads the register at offset `off`. -/
  | hostRead (size : AccessSize) (off : Byte)
  /-- The environment drives an input register (R20, R60). -/
  | drive (reg : InputReg) (data : Word)
  /-- `ms` milliseconds pass on the counter behind NOW_MS (R28, R68, R281). -/
  | elapse (ms : Nat)
  /-- Power-on reset (R42, R290). -/
  | powerOn
  deriving DecidableEq, Repr

/-- The state of the block. -/
structure State where
  /-- CMD, the last command word written (R26, log 11). -/
  cmd : BitVec 16
  /-- A0 (R22). -/
  a0 : Word
  /-- A1 (R22). -/
  a1 : Word
  /-- RES (R22). -/
  res : Word
  /-- STATUS.STARTED (R27). -/
  started : Bool
  /-- STATUS.PRESENT (R27). -/
  present : Bool
  /-- STATUS.BUS_OPEN (R27, R39). -/
  busOpen : Bool
  /-- STATUS.ACK (R35). -/
  ack : Bool
  /-- STATUS.LAST_VALID (R36). -/
  lastValid : Bool
  /-- STATUS.MAX_BRIGHTNESS (R27). -/
  maxBrightness : Byte
  /-- STATUS.BRIGHT (R38). -/
  bright : BitVec 3
  /-- NOW_MS (R28). -/
  nowMs : Word
  /-- MODE (R29). -/
  mode : BitVec 2
  /-- ALERT (R30). -/
  alert : BitVec 2
  /-- HEALTH (R31). -/
  health : BitVec 2
  /-- POWER_W (R32). -/
  powerW : Word
  /-- CHARGE (R33). -/
  charge : Word
  /-- VOLT_DV (R33). -/
  voltDv : Word
  /-- CURR_DA (R33). -/
  currDa : Word
  /-- CAP_WH (R33). -/
  capWh : Word
  /-- FRAME (R34). -/
  frame : Word
  /-- BRT (R37). -/
  brt : Byte
  /-- LED_R (R37). -/
  ledR : Byte
  /-- LED_G (R37). -/
  ledG : Byte
  /-- LED_B (R37). -/
  ledB : Byte
  /-- LAST_S (R36). -/
  lastS : Word
  /-- CLK, DIO_DIR and DIO_OUT (R39). -/
  pins : Pins
  /-- TRACE, oldest event first (R40). -/
  trace : List Event
  /-- Which registers hold a value (R23, R42). -/
  held : Held
  /-- The open parameters; no step changes them (R8, log 1). -/
  cfg : Config
  /-- The model's own: the actions still to come, oldest first (log 6). -/
  pending : List Action
  /-- The model's own: the word the host's last register read returned (log 10). -/
  readData : Word
  /-- The model's own: how many samples of the data pin have been drawn (log 5). -/
  drawn : Nat
  deriving DecidableEq, Repr

/-- The block raises no exception and never gets stuck (spec/60_exceptions.md R270, R274;
spec/93_implementation_defined.md part 1): there is no fault. -/
inductive Fault where
  deriving DecidableEq, Repr

/-- The situations to which the spec gives no meaning (spec/60_exceptions.md R276). All are safe: the model
stops where the spec says that no step exists. -/
inductive Refusal where
  /-- Raised by exec for a command that has no meaning yet; safe. No arm raises it. -/
  | notModelled (mnemonic : String)
  /-- R276 item 1: the word written to CMD is reserved. Raised by a host write to CMD; safe. -/
  | reservedWord (why : DecodeError)
  /-- R276 item 2, R23: a read of a register that holds no value. Raised by the strict machine only
  (log 4); safe. -/
  | noValue
  /-- R276 item 3, R251: a command other than SYS.INIT, ENC and ROT while STARTED = 0; safe. -/
  | notStarted
  /-- R276 item 4: a display command while PRESENT = 0; safe. -/
  | noDisplay
  /-- R276 item 5: BUS.START, DISP.WRITE, an FMT command, SYS.TICK or SYS.INIT while BUS_OPEN = 1; safe. -/
  | busOpen
  /-- R276 item 5: BUS.STOP or BUS.BYTE while BUS_OPEN = 0; safe. -/
  | busClosed
  /-- R276 item 6, R256: SYS.TICK with MODE = 3; safe. -/
  | reservedMode
  /-- R276 item 6, R256: SYS.TICK with MODE = HEARTBEAT and ALERT = 3; and the ill-formed
  BRT.HEARTBEAT with alert = 3, which no word decodes to (R89); safe. -/
  | reservedAlert
  /-- R276 item 7, R67: a host access that is not one whole word; safe. -/
  | narrowAccess
  /-- R276 item 7, R67: a host access at an offset that is no multiple of 4; safe. -/
  | misalignedAccess
  /-- R276 item 7, R61: a host access to a reserved offset; safe. -/
  | reservedOffset
  /-- R276 item 7, R61: a host write to STATUS, RES, NOW_MS, FRAME, LED or LAST_S; safe. -/
  | readOnlyRegister
  /-- R276 item 7, R61: a host read of CMD; safe. -/
  | writeOnlyRegister
  deriving DecidableEq, Repr

/-- What a step or a meaning answers. -/
abbrev Result := Host.Outcome State Fault Refusal

/-- The block after power-on with configuration `c` (R42, R290): STARTED, PRESENT, BUS_OPEN and
LAST_VALID are 0 and TRACE is empty, as the spec says; every other register 'holds no value' and is
given 0 (DESIGN CHOICE, logs 2 and 18), the pins their idle levels (DESIGN CHOICE, log 3). -/
def State.powerOnWith (c : Config) : State where
  cmd := 0
  a0 := 0
  a1 := 0
  res := 0
  started := false
  present := false
  busOpen := false
  ack := false
  lastValid := false
  maxBrightness := 0
  bright := 0
  nowMs := 0
  mode := 0
  alert := 0
  health := 0
  powerW := 0
  charge := 0
  voltDv := 0
  currDa := 0
  capWh := 0
  frame := 0
  brt := 0
  ledR := 0
  ledG := 0
  ledB := 0
  lastS := 0
  pins := .idle
  trace := []
  held := .none
  cfg := c
  pending := []
  readData := 0
  drawn := 0

/-- The machine right after reset, with the reference configuration (log 1). -/
def State.reset : State := State.powerOnWith .reference

end Sys2Proof.Machine
end

