-- ==== Sys2Proof/Machine/Flags.lean ====
section
/-! DEFINITION. The status fields as the host reads them. The block has no condition codes and no flag that
a command tests (spec/10_state.md R25); what a manual would call flags are the fields of STATUS (R27) and
the read-back register LED (R37). -/

namespace Sys2Proof.Machine

/-- A field of a 32-bit register: `v` with its lowest bit at bit `n`. -/
def fieldAt {w : Nat} (v : BitVec w) (n : Nat) : Word := v.setWidth 32 <<< n

/-- STATUS (R27): [0] STARTED, [1] PRESENT, [2] BUS_OPEN, [3] ACK, [4] LAST_VALID, [7:5] zero,
[15:8] MAX_BRIGHTNESS, [18:16] BRIGHT, [31:19] zero. -/
def State.status (s : State) : Word :=
  fieldAt (BitVec.ofBool s.started) 0 ||| fieldAt (BitVec.ofBool s.present) 1 |||
    fieldAt (BitVec.ofBool s.busOpen) 2 ||| fieldAt (BitVec.ofBool s.ack) 3 |||
    fieldAt (BitVec.ofBool s.lastValid) 4 ||| fieldAt s.maxBrightness 8 ||| fieldAt s.bright 16

/-- LED (R37): [31:24] BRT, [23:16] LED_R, [15:8] LED_G, [7:0] LED_B. -/
def State.led (s : State) : Word :=
  fieldAt s.brt 24 ||| fieldAt s.ledR 16 ||| fieldAt s.ledG 8 ||| fieldAt s.ledB 0

end Sys2Proof.Machine
end

