-- ==== Sys2Proof/Machine/Operands.lean ====
section
/-! DEFINITION. How operands are read: the formats of A0 and A1 (spec/30_encoding.md R86), the enumerations
(R85), the frame as four bytes (spec/20_memory.md R66), and the arithmetic conventions
(spec/00_scope.md R10). -/

namespace Sys2Proof.Machine

/-- `clamp(v, lo, hi)` (R10). -/
def clamp (v lo hi : Int) : Int := if v < lo then lo else if v > hi then hi else v

/-- U32: `unsigned32(w)` (R10, R86). -/
abbrev unsigned32 (w : Word) : Nat := w.toNat

/-- S32: `signed32(w)`, two's complement (R10, R86). -/
abbrev signed32 (w : Word) : Int := w.toInt

/-- U8: bits 7:0, bits 31:8 ignored (R86). -/
def u8 (w : Word) : Byte := w.setWidth 8

/-- Four bytes by position, `b0` leftmost: a SegmentFrame (R15, R34), or the characters of TEXT4. -/
structure Frame where
  b0 : Byte
  b1 : Byte
  b2 : Byte
  b3 : Byte
  deriving DecidableEq, Repr

/-- TEXT4 and FRAME4: position 0 in bits 7:0, position 3 in bits 31:24 (R66, R86). -/
def unpack4 (w : Word) : Frame :=
  ⟨w.extractLsb' 0 8, w.extractLsb' 8 8, w.extractLsb' 16 8, w.extractLsb' 24 8⟩

/-- The word that packs four bytes (R66, R182). -/
def pack4 (f : Frame) : Word :=
  fieldAt f.b0 0 ||| fieldAt f.b1 8 ||| fieldAt f.b2 16 ||| fieldAt f.b3 24

/-- SUF2, first character: bits 7:0 (R86). -/
def suffix0 (w : Word) : Byte := w.extractLsb' 0 8

/-- SUF2, second character: bits 15:8; bits 31:16 are ignored (R86). -/
def suffix1 (w : Word) : Byte := w.extractLsb' 8 8

/-- The encoding of MODE; 3 is reserved (R29, R85). -/
def animationMode (m : BitVec 2) : Option AnimationMode :=
  if m = 0#2 then some .classic else if m = 1#2 then some .flow
  else if m = 2#2 then some .heartbeat else none

/-- The encoding of ALERT and of the alert field; 3 is reserved (R30, R85). -/
def alertLevel (a : BitVec 2) : Option AlertLevel :=
  if a = 0#2 then some .normal else if a = 1#2 then some .warning
  else if a = 2#2 then some .error else none

/-- The encoding of HEALTH and of the health field; all four are legal (R31, R85). -/
def healthStatus (h : BitVec 2) : HealthStatus :=
  if h = 0#2 then .ok else if h = 1#2 then .warning else if h = 2#2 then .error else .updating

/-- `q(num/den)`, the Q15.16 word of a decimal number: for `x >= 0` the least `n` with
`n / 65536 >= x`, for `x < 0` minus the word of `-x` (R96, R181). DESIGN CHOICE (log 21): a number outside the
range of Q15.16 is taken modulo 2^32, and a denominator of 0, which writes no number, gives the word 0. -/
def qWord (num : Int) (den : Nat) : Word :=
  if 0 ≤ num then BitVec.ofInt 32 ((num * 65536 + (den - 1)) / den)
  else BitVec.ofInt 32 (-((-num * 65536 + (den - 1)) / den))

end Sys2Proof.Machine
end

