-- ==== Sys2Proof/Machine/Ops.lean ====
section
/-! DEFINITION. The operations the meanings share: writing the result registers, the conditions under
which the spec gives a command a meaning, and the pin procedures of the two-wire bus
(spec/44_protocol_driver.md).

TAKING AN EXCEPTION: the block raises none and returns from none (spec/60_exceptions.md R270, R274, R275),
so there is no entry operation to share. What the spec has in its place is refusal (R276), which the
operations `requireStarted`, `requireDisplay`, `requireBusIdle` and `requireBusOpen` hold once. -/

namespace Sys2Proof.Machine

/-! ### Registers -/

/-- `RES <- w` (R22). -/
def State.setRes (s : State) (w : Word) : State :=
  { s with res := w, held := { s.held with res := true } }

/-- `BRT <- b` (R37). -/
def State.setBrt (s : State) (b : Byte) : State :=
  { s with brt := b, held := { s.held with brt := true } }

/-- `FRAME <- f[0] | (f[1] << 8) | (f[2] << 16) | (f[3] << 24)` (R34, R182). -/
def State.setFrame (s : State) (f : Frame) : State :=
  { s with frame := pack4 f, held := { s.held with frame := true } }

/-- `LAST_S <- s; LAST_VALID <- 1` (R36, R257). -/
def State.setLastS (s : State) (w : Word) : State :=
  { s with lastS := w, lastValid := true }

/-- `LED_R <- r; LED_G <- g; LED_B <- bl`, then `LedSet` and `LedShow` (R37, R258). -/
def State.showLed (s : State) (r g b : Byte) : State :=
  { s with
    ledR := r, ledG := g, ledB := b
    held := { s.held with led := true }
    trace := s.trace ++ [.ledSet r g b, .ledShow] }

/-! ### When a command has a meaning (R276) -/

/-- R276 item 3: STATUS.STARTED = 1. -/
def requireStarted (s : State) (r : Result) : Result :=
  if s.started then r else .refused .notStarted

/-- R276 item 4: STATUS.PRESENT = 1. -/
def requireDisplay (s : State) (r : Result) : Result :=
  if s.present then r else .refused .noDisplay

/-- R276 item 5: STATUS.BUS_OPEN = 0. -/
def requireBusIdle (s : State) (r : Result) : Result :=
  if s.busOpen then .refused .busOpen else r

/-- R276 item 5: STATUS.BUS_OPEN = 1. -/
def requireBusOpen (s : State) (r : Result) : Result :=
  if s.busOpen then r else .refused .busClosed

/-- The precondition of every command that writes a frame or starts a transaction (R182, R212, R225). -/
def whenDisplayIdle (s : State) (r : Result) : Result :=
  requireStarted s (requireDisplay s (requireBusIdle s r))

/-- The precondition of BUS.STOP and BUS.BYTE (R214, R217). -/
def whenDisplayOpen (s : State) (r : Result) : Result :=
  requireStarted s (requireDisplay s (requireBusOpen s r))

/-! ### The pin procedures -/

/-- One line of the pseudocode of a pin procedure (R212 to R216). -/
inductive PinOp where
  /-- `Emit(Clk(v)); CLK <- v`. -/
  | clk (v : Bool)
  /-- `Emit(Dio(v)); DIO_OUT <- v`. -/
  | dio (v : Bool)
  /-- `Emit(DioDir(d)); DIO_DIR <- d`. -/
  | dir (d : Dir)
  /-- `Delay()`. -/
  | delay
  /-- `a = Draw(); Emit(Sample(a)); ACK <- a`. -/
  | sample
  /-- `BUS_OPEN <- v`. -/
  | busOpen (v : Bool)
  deriving DecidableEq, Repr

/-- The effect of one line. `Delay()` changes no state (R233, log 7); the sample is the free value
(R216, log 5). -/
def PinOp.apply (s : State) : PinOp → State
  | .clk v => { s with trace := s.trace ++ [.clk v], pins := { s.pins with clk := v } }
  | .dio v => { s with trace := s.trace ++ [.dio v], pins := { s.pins with dioOut := v } }
  | .dir d => { s with trace := s.trace ++ [.dioDir d], pins := { s.pins with dioDir := d } }
  | .delay => s
  | .sample =>
    { s with
      trace := s.trace ++ [.sample (Config.draw s.drawn)]
      ack := Config.draw s.drawn
      held := { s.held with ack := true }
      drawn := s.drawn + 1 }
  | .busOpen v => { s with busOpen := v }

/-- The lines of a procedure, in order. -/
def runPins (ops : List PinOp) (s : State) : State := ops.foldl PinOp.apply s

/-- `StartCond()` (R212). -/
def startCond : List PinOp := [.dio false, .delay, .busOpen true]

/-- `StopCond()` (R214). -/
def stopCond : List PinOp :=
  [.clk false, .dio false, .delay, .clk true, .delay, .dio true, .delay, .busOpen false]

/-- `BitCell(v)` (R215). -/
def bitCell (v : Bool) : List PinOp := [.clk false, .dio v, .delay, .clk true, .delay]

/-- `AckCell()` (R216). -/
def ackCell : List PinOp :=
  [.clk false, .dir .inp, .delay, .clk true, .delay, .sample, .clk false, .dir .out, .delay]

/-- The bits of a byte in the order they are sent, least significant first (R65, R217). -/
def bitsOfByte (b : Byte) : List Bool :=
  [b.getLsbD 0, b.getLsbD 1, b.getLsbD 2, b.getLsbD 3,
    b.getLsbD 4, b.getLsbD 5, b.getLsbD 6, b.getLsbD 7]

/-- `SendByte(b)` (R217). The sample it returns is in ACK. -/
def sendByte (b : Byte) : List PinOp := (bitsOfByte b).flatMap bitCell ++ ackCell

/-- The address-set byte CMD_ADDR0 (R7, R93). -/
def cmdAddr0 : Byte := 0xC0#8

/-- The display-control byte `0x88 | BRIGHT` (R38, R93). -/
def controlByte (bright : BitVec 3) : Byte := 0x88#8 ||| bright.setWidth 8

/-- `WriteFrame(f)` (R226). -/
def writeFrame (c : Config) (bright : BitVec 3) (f : Frame) : List PinOp :=
  startCond ++ sendByte c.cmdDataWrite ++
    (if c.splitDataCmd then stopCond ++ startCond else []) ++
    sendByte cmdAddr0 ++
    sendByte f.b0 ++ sendByte f.b1 ++ sendByte f.b2 ++ sendByte f.b3 ++ stopCond ++
    startCond ++ sendByte (controlByte bright) ++ stopCond

/-- FRAME is written, then the frame is sent (R182, R225). -/
def showFrame (f : Frame) (s : State) : State :=
  runPins (writeFrame s.cfg s.bright f) (s.setFrame f)

end Sys2Proof.Machine
end

