-- ==== Sys2Proof/Machine/Brightness.lean ====
section
/-! DEFINITION. The brightness engine: BRT.CLASSIC, BRT.FLOW, BRT.HEARTBEAT (spec/40_brightness.md). -/

namespace Sys2Proof.Machine

/-- TRI_PERIOD, milliseconds (R7). -/
def triPeriod : Nat := 3000

/-- The triangle `TRI(p, T, c)` with MAXB = `maxb` (R124). -/
def tri (maxb p T : Nat) (c : Int) : Nat :=
  let m := T * (clamp c 0 100).toNat / 100
  let v := if p < m then maxb * p / m else maxb * (T - p) / (T - m)
  (clamp v 0 maxb).toNat

/-- The FLOW midpoint in percent, from the power in watts (R127). -/
def flowMidpoint (dischargePositive : Bool) (pw : Int) : Int :=
  let d := if dischargePositive then pw else -pw
  if d > 50 then 95 else if d < -50 then 5 else 50

/-- Beats per minute of an alert level (R130). -/
def bpm : AlertLevel → Nat
  | .normal => 35
  | .warning => 70
  | .error => 100

/-- The HEARTBEAT period, `60000 div bpm` (R130). -/
def hbPeriod (a : AlertLevel) : Nat := 60000 / bpm a

/-- The knots K[0..7] in percent of the period (R131). -/
def hbKnots : Vector Nat 8 := #v[0, 10, 20, 25, 30, 40, 55, 100]

/-- The one segment `i` with `K[i] * T <= 100 * p < K[i+1] * T`: a segment owns its left knot (R132). -/
def hbSegment (p T : Nat) : Fin 7 :=
  if 100 * p < 10 * T then 0 else if 100 * p < 20 * T then 1 else if 100 * p < 25 * T then 2
  else if 100 * p < 30 * T then 3 else if 100 * p < 40 * T then 4
  else if 100 * p < 55 * T then 5 else 6

/-- The interpolation `PWL(p, T)` with MAXB = `maxb` (R132). -/
def pwl (c : HbCurve) (maxb p T : Nat) : Nat :=
  let i := hbSegment p T
  let kLo := hbKnots[i.val]
  let kHi := hbKnots[i.val + 1]
  let yLo : Int := c.levels[i.val]
  let yHi : Int := c.levels[i.val + 1]
  let n : Int := 100 * p - kLo * T
  let d : Int := (kHi - kLo) * T
  let num := yLo * d + (yHi - yLo) * n
  let v := (maxb * num) / (c.den * d)
  (clamp v 0 maxb).toNat

/-- The three brightness functions with the operand each takes beside the time (R123, R258). -/
inductive Wave where
  | classic
  | flow (pw : Int)
  | heartbeat (a : AlertLevel)
  deriving DecidableEq, Repr

/-- `compute(mode, now_ms, alert_level, power_w)`: the brightness at time `t` (R120, R125, R128, R133). -/
def brightness (c : Config) (maxb t : Nat) : Wave → Nat
  | .classic => tri maxb (t % triPeriod) triPeriod 50
  | .flow pw => tri maxb (t % triPeriod) triPeriod (flowMidpoint c.dischargePositive pw)
  | .heartbeat a => pwl c.hb maxb (t % hbPeriod a) (hbPeriod a)

/-- The brightness as the 8-bit value that goes to BRT (R121). -/
def brightnessByte (c : Config) (maxb : Byte) (t : Nat) (w : Wave) : Byte :=
  BitVec.ofNat 8 (brightness c maxb.toNat t w)

/-- What a BRT command does: `BRT <- b; RES <- b` with bits 31:8 of RES zero (R121). -/
def computeBrightness (w : Wave) (s : State) : Result :=
  requireStarted s
    (let b := brightnessByte s.cfg s.maxBrightness (unsigned32 s.a0) w
     .next ((s.setBrt b).setRes (b.setWidth 32)))

/-- BRT.CLASSIC (R125). -/
def execBrtClassic (s : State) : Result := computeBrightness .classic s

/-- BRT.FLOW (R128). -/
def execBrtFlow (s : State) : Result := computeBrightness (.flow (signed32 s.a1)) s

/-- BRT.HEARTBEAT (R133). The ill-formed alert 3 is refused (R89). -/
def execBrtHeartbeat (alert : BitVec 2) (s : State) : Result :=
  match alertLevel alert with
  | some a => computeBrightness (.heartbeat a) s
  | none => .refused .reservedAlert

end Sys2Proof.Machine
end

