-- ==== Sys2Proof/Machine/ColorRotator.lean ====
section
/-! DEFINITION. The colour selector and the display rotator: COLOR, ROT (spec/41_color_rotator.md). -/

namespace Sys2Proof.Machine

/-- A red, green, blue triple (R150, R152). -/
structure Rgb where
  r : Byte
  g : Byte
  b : Byte
  deriving DecidableEq, Repr

/-- `select(health_status, brightness)` (R150). -/
def selectColor (maxb : Byte) (h : HealthStatus) (b : Byte) : Rgb :=
  match h with
  | .ok => ⟨0, b, 0⟩
  | .warning => ⟨b, b, 0⟩
  | .error => ⟨maxb, 0, 0⟩
  | .updating => ⟨0, 0, b⟩

/-- `(r << 16) | (g << 8) | bl`, bits 31:24 zero (R150). -/
def Rgb.pack (c : Rgb) : Word := fieldAt c.r 16 ||| fieldAt c.g 8 ||| fieldAt c.b 0

/-- COLOR (R150). -/
def execColor (health : BitVec 2) (s : State) : Result :=
  requireStarted s
    (.next (s.setRes (selectColor s.maxBrightness (healthStatus health) (u8 s.a0)).pack))

/-- `slot = s mod 16` (R155). -/
def slotOf (seconds : Nat) : Nat := seconds % 16

/-- `kind = (slot div 2) mod 2` as a number, 0 label and 1 value (R155). -/
def kindCode (slot : Nat) : Nat := slot / 2 % 2

/-- `metric = slot div 4` as a number (R155). -/
def metricCode (slot : Nat) : Nat := slot / 4

/-- 0 = label, 1 = value (R155). -/
def slotKind (slot : Nat) : SlotKind := if kindCode slot = 0 then .label else .value

/-- 0 charge, 1 voltage, 2 current, 3 capacity (R155). -/
def slotMetric (slot : Nat) : Metric :=
  if metricCode slot = 0 then .charge else if metricCode slot = 1 then .voltage
  else if metricCode slot = 2 then .current else .capacity

/-- `slot | (kind << 4) | (metric << 5)` (R155). -/
def slotWord (slot : Nat) : Word :=
  BitVec.ofNat 32 slot ||| BitVec.ofNat 32 (kindCode slot) <<< 4 |||
    BitVec.ofNat 32 (metricCode slot) <<< 5

/-- ROT (R155). It needs no initialisation. -/
def execRot (s : State) : Result := .next (s.setRes (slotWord (slotOf (unsigned32 s.a0))))

end Sys2Proof.Machine
end

