-- ==== Sys2Proof/Machine/Driver.lean ====
section
/-! DEFINITION. The two-wire protocol driver's commands: BUS.START, BUS.STOP, BUS.BYTE, DISP.WRITE,
DISP.BRIGHT (spec/44_protocol_driver.md). The pin procedures are in Ops. -/

namespace Sys2Proof.Machine

/-- BUS.START (R212). -/
def execBusStart (s : State) : Result := whenDisplayIdle s (.next (runPins startCond s))

/-- BUS.STOP (R214). -/
def execBusStop (s : State) : Result := whenDisplayOpen s (.next (runPins stopCond s))

/-- `SendByte(b)` and then `RES <- ` the sample, bits 31:1 zero (R217). -/
def sendByteResult (b : Byte) (s : State) : State :=
  let t := runPins (sendByte b) s
  t.setRes ((BitVec.ofBool t.ack).setWidth 32)

/-- BUS.BYTE (R217). -/
def execBusByte (byte : Byte) (s : State) : Result :=
  whenDisplayOpen s (.next (sendByteResult byte s))

/-- DISP.WRITE (R225). -/
def execDispWrite (s : State) : Result := whenDisplayIdle s (.next (showFrame (unpack4 s.a0) s))

/-- `BRIGHT <- level` (R230). -/
def State.setBright (s : State) (level : BitVec 3) : State :=
  { s with bright := level, held := { s.held with bright := true } }

/-- DISP.BRIGHT (R230): nothing is sent, and an open bus is no hindrance. -/
def execDispBright (level : BitVec 3) (s : State) : Result :=
  requireStarted s (requireDisplay s (.next (s.setBright level)))

end Sys2Proof.Machine
end

