-- ==== Sys2Proof/Machine/Encoder.lean ====
section
/-! DEFINITION. The segment encoder: ENC and the function SEG (spec/42_segment_encoder.md). -/

namespace Sys2Proof.Machine

/-- Lower case folds onto upper case: `c - 0x20` for 0x61 to 0x7A (R166). -/
def foldCase (c : Byte) : Byte := if 0x61 ≤ c.toNat ∧ c.toNat ≤ 0x7A then c - 0x20#8 else c

/-- The entry of SEG_TABLE for a code of the mapped alphabet, none for an unmapped code (R167, R168). -/
def segEntry (t : SegTable) (c : Byte) : Option Glyph :=
  if h : 0x30 ≤ c.toNat ∧ c.toNat ≤ 0x39 then some (t.digits[c.toNat - 0x30]'(by omega))
  else if h : 0x41 ≤ c.toNat ∧ c.toNat ≤ 0x5A then some (t.letters[c.toNat - 0x41]'(by omega))
  else if c.toNat = 0x2D then some t.hyphen
  else if c.toNat = 0x5F then some t.underscore
  else if c.toNat = 0x2A then some t.asterisk
  else if c.toNat = 0x20 then some t.space
  else none

/-- `SEG(c)`: total, 0x00 for an unmapped code (R166, R168). -/
def seg (t : SegTable) (c : Byte) : Glyph := (segEntry t (foldCase c)).getD 0

/-- The bitmap as a frame byte, bit 7 (the decimal point) 0 (R92, R165). -/
def glyphByte (t : SegTable) (c : Byte) : Byte := (seg t c).setWidth 8

/-- ENC (R165): no precondition. -/
def execEnc (char : Byte) (s : State) : Result := .next (s.setRes ((seg s.cfg.seg char).setWidth 32))

end Sys2Proof.Machine
end

