-- ==== Sys2Proof/Machine/Formatter.lean ====
section
/-! DEFINITION. The display formatter: FMT.TEXT, FMT.INT, FMT.SMALL, FMT.FIXS, FMT.FIX2, FMT.TIME
(spec/43_formatter.md). -/

namespace Sys2Proof.Machine

/-- `DIG(d)`, `SEG(0x30 + d)` (R180). -/
def dig (t : SegTable) (d : Nat) : Byte := glyphByte t (BitVec.ofNat 8 (0x30 + d))

/-- `STAR`, `SEG(0x2A)` (R180). -/
def starByte (t : SegTable) : Byte := glyphByte t 0x2A#8

/-- `BLANK` (R180). -/
def blankByte : Byte := 0x00#8

/-- `f | 0x80` where the dot is set (R183). -/
def withDot (dot : Bool) (b : Byte) : Byte := if dot then b ||| 0x80#8 else b

/-- Applying the dot mask: bit `i` belongs to position `i` (R183). -/
def applyDots (dots : BitVec 4) (f : Frame) : Frame :=
  ⟨withDot (dots.getLsbD 0) f.b0, withDot (dots.getLsbD 1) f.b1,
    withDot (dots.getLsbD 2) f.b2, withDot (dots.getLsbD 3) f.b3⟩

/-- Thousands, hundreds, tens and units: `DEC4(w)` (R184). -/
def thousands (w : Nat) : Nat := w / 1000
@[inherit_doc thousands] def hundreds (w : Nat) : Nat := w / 100 % 10
@[inherit_doc thousands] def tens (w : Nat) : Nat := w / 10 % 10
@[inherit_doc thousands] def units (w : Nat) : Nat := w % 10

/-- The frame of FMT.TEXT (R185). -/
def textFrame (t : SegTable) (a0 : Word) : Frame :=
  let c := unpack4 a0
  ⟨glyphByte t c.b0, glyphByte t c.b1, glyphByte t c.b2, glyphByte t c.b3⟩

/-- The value FMT.INT shows, `clamp(signed32(A0), 0, 9999)` (R188). -/
def intValue (a0 : Word) : Nat := (clamp (signed32 a0) 0 9999).toNat

/-- The frame of FMT.INT (R188): a digit shows when leading zeros do, when it or one before it is not
zero, and always at position 3. -/
def intFrame (t : SegTable) (leadingZero : Bool) (a0 : Word) : Frame :=
  let w := intValue a0
  let shown0 := leadingZero || thousands w != 0
  let shown1 := shown0 || hundreds w != 0
  let shown2 := shown1 || tens w != 0
  ⟨if shown0 then dig t (thousands w) else blankByte,
    if shown1 then dig t (hundreds w) else blankByte,
    if shown2 then dig t (tens w) else blankByte,
    dig t (units w)⟩

/-- The frame of FMT.SMALL (R192). -/
def smallFrame (t : SegTable) (a0 a1 : Word) : Frame :=
  let v := unsigned32 a0
  let s0 := glyphByte t (suffix0 a1)
  let s1 := glyphByte t (suffix1 a1)
  if v ≤ 99 then ⟨if v ≥ 10 then dig t (v / 10) else glyphByte t 0x20#8, dig t (v % 10), s0, s1⟩
  else ⟨starByte t, starByte t, s0, s1⟩

/-- The magnitude FMT.FIXS shows, `(abs(n) * 10) div 65536` (R181, R195). -/
def fixsMagnitude (a0 : Word) : Nat := (signed32 a0).natAbs * 10 / 65536

/-- The frame of FMT.FIXS (R195); on overflow the dots are not applied. -/
def fixsFrame (t : SegTable) (dots : BitVec 4) (a0 a1 : Word) : Frame :=
  let m := fixsMagnitude a0
  if m > 999 then ⟨starByte t, starByte t, glyphByte t (suffix0 a1), glyphByte t (suffix1 a1)⟩
  else applyDots dots
    ⟨dig t (m / 100), dig t (m / 10 % 10), dig t (m % 10), glyphByte t (suffix0 a1)⟩

/-- The value FMT.FIX2 shows, `clamp((n * 100) div 65536, 0, 9999)` (R181, R199). -/
def fix2Value (a0 : Word) : Nat := (clamp (signed32 a0 * 100 / 65536) 0 9999).toNat

/-- The frame of FMT.FIX2 (R199). -/
def fix2Frame (t : SegTable) (dots : BitVec 4) (a0 : Word) : Frame :=
  let w := fix2Value a0
  applyDots dots ⟨dig t (thousands w), dig t (hundreds w), dig t (tens w), dig t (units w)⟩

/-- A field of FMT.TIME, clamped to 0 to 99 (R202). -/
def timeField (w : Word) : Nat := (clamp (signed32 w) 0 99).toNat

/-- The frame of FMT.TIME (R202); the colon is the decimal point of position 1. -/
def timeFrame (t : SegTable) (colon : Bool) (a0 a1 : Word) : Frame :=
  let h := timeField a0
  let m := timeField a1
  ⟨dig t (h / 10), withDot colon (dig t (h % 10)), dig t (m / 10), dig t (m % 10)⟩

/-- The frame a formatter request builds from its operands. -/
def formatFrame (t : SegTable) : FmtCmd Word → Frame
  | .text a0 => textFrame t a0
  | .int leadingZero a0 => intFrame t leadingZero a0
  | .small a0 a1 => smallFrame t a0 a1
  | .fixs dots a0 a1 => fixsFrame t dots a0 a1
  | .fix2 dots a0 => fix2Frame t dots a0
  | .time colon a0 a1 => timeFrame t colon a0 a1

/-- What every FMT command does: the frame goes to FRAME and to the display (R182). -/
def runFormat (c : FmtCmd Word) (s : State) : State := showFrame (formatFrame s.cfg.seg c) s

/-- FMT.TEXT (R185). -/
def execFmtText (s : State) : Result := whenDisplayIdle s (.next (runFormat (.text s.a0) s))

/-- FMT.INT (R188). -/
def execFmtInt (leadingZero : Bool) (s : State) : Result :=
  whenDisplayIdle s (.next (runFormat (.int leadingZero s.a0) s))

/-- FMT.SMALL (R192). -/
def execFmtSmall (s : State) : Result := whenDisplayIdle s (.next (runFormat (.small s.a0 s.a1) s))

/-- FMT.FIXS (R195). -/
def execFmtFixs (dots : BitVec 4) (s : State) : Result :=
  whenDisplayIdle s (.next (runFormat (.fixs dots s.a0 s.a1) s))

/-- FMT.FIX2 (R199). -/
def execFmtFix2 (dots : BitVec 4) (s : State) : Result :=
  whenDisplayIdle s (.next (runFormat (.fix2 dots s.a0) s))

/-- FMT.TIME (R202). -/
def execFmtTime (colon : Bool) (s : State) : Result :=
  whenDisplayIdle s (.next (runFormat (.time colon s.a0 s.a1) s))

end Sys2Proof.Machine
end

