-- ==== Sys2Proof/Machine/System.lean ====
section
/-! DEFINITION. The system commands SYS.INIT and SYS.TICK (spec/45_system.md). -/

namespace Sys2Proof.Machine

/-- `Emit(Clk(1)); CLK <- 1; Emit(Dio(1)); DIO_OUT <- 1; Emit(DioDir(OUT)); DIO_DIR <- OUT` (R250). -/
def idlePins : List PinOp := [.clk true, .dio true, .dir .out]

/-- The registers a successful SYS.INIT writes before it touches the pins (R250). -/
def initRegisters (present : Bool) (s : State) : State :=
  { s with
    started := true
    present := present
    maxBrightness := u8 s.a0
    bright := s.cfg.dispBrightReset
    lastValid := false
    held := { s.held with maxBrightness := true, bright := true } }

/-- The pins of a display that is present are put in the idle state (R250). -/
def initPins (s : State) : State :=
  let t := runPins idlePins s
  { t with held := { t.held with pins := true } }

/-- SYS.INIT with alloc_ok = 1 (R250). -/
def initOk (present : Bool) (s : State) : State :=
  let t := initRegisters present s
  (if present then initPins t else t).setRes 1

/-- SYS.INIT with alloc_ok = 0: 'changes nothing else' (R42, R250). -/
def initFailed (s : State) : State := ({ s with started := false, present := false }).setRes 0

/-- SYS.INIT (R250). -/
def execSysInit (allocOk present : Bool) (s : State) : Result :=
  requireBusIdle s (.next (if allocOk then initOk present s else initFailed s))

/-- The word a planned operand stands for (R158). -/
def planWord (tel : Telemetry) : PlanSource → Word
  | .const w => w
  | .charge => tel.charge
  | .voltDv => tel.voltDv
  | .currDa => tel.currDa
  | .capWh => tel.capWh

/-- A planned request with its operands filled in. -/
def fillPlan (tel : Telemetry) : FmtCmd PlanSource → FmtCmd Word
  | .text a0 => .text (planWord tel a0)
  | .int leadingZero a0 => .int leadingZero (planWord tel a0)
  | .small a0 a1 => .small (planWord tel a0) (planWord tel a1)
  | .fixs dots a0 a1 => .fixs dots (planWord tel a0) (planWord tel a1)
  | .fix2 dots a0 => .fix2 dots (planWord tel a0)
  | .time colon a0 a1 => .time colon (planWord tel a0) (planWord tel a1)

/-- The place of a metric in a table of four. -/
def metricIndex : Metric → Fin 4
  | .charge => 0
  | .voltage => 1
  | .current => 2
  | .capacity => 3

/-- `ROT_PLAN(kind, metric, tel)` (R158, log 8). -/
def rotPlan (p : RotPlan) (kind : SlotKind) (metric : Metric) (tel : Telemetry) : FmtCmd Word :=
  match p with
  | .table labels values =>
    match kind with
    | .label => fillPlan tel labels[metricIndex metric]
    | .value => fillPlan tel values[metricIndex metric]
  | .other n => Config.otherPlan n kind metric tel

/-- Whole seconds, `NOW_MS div 1000` (R157). -/
def wholeSeconds (now : Nat) : Nat := now / 1000

/-- The rate limit: refresh iff LAST_VALID = 0 or the second differs from LAST_S (R36, R257). -/
def refreshDue (s : State) (seconds : Nat) : Bool := !s.lastValid || s.lastS.toNat != seconds

/-- The request planned for a second (R155, R257). -/
def plannedFormat (p : RotPlan) (seconds : Nat) (tel : Telemetry) : FmtCmd Word :=
  rotPlan p (slotKind (slotOf seconds)) (slotMetric (slotOf seconds)) tel

/-- `DisplayPath(now, tel)` (R257). The planned operands are used directly; A0, A1 and RES stay. -/
def displayPath (now : Nat) (tel : Telemetry) (s : State) : State :=
  let seconds := wholeSeconds now
  if s.present && refreshDue s seconds then
    (runFormat (plannedFormat s.cfg.rotPlan seconds tel) s).setLastS (BitVec.ofNat 32 seconds)
  else s

/-- `LedPath(now, mode, alert, health, pw)` (R258), with the waveform already selected. -/
def ledPath (now : Nat) (w : Wave) (h : HealthStatus) (s : State) : State :=
  let b := brightnessByte s.cfg s.maxBrightness now w
  let c := selectColor s.maxBrightness h b
  (s.setBrt b).showLed c.r c.g c.b

/-- The four telemetry words a tick samples (R72, R255). -/
def State.telemetry (s : State) : Telemetry := ⟨s.charge, s.voltDv, s.currDa, s.capWh⟩

/-- The waveform MODE, ALERT and POWER_W select, or why SYS.TICK is refused (R256, R258). ALERT matters
in HEARTBEAT mode only. -/
def tickWave (s : State) : Except Refusal Wave :=
  match animationMode s.mode with
  | some .classic => .ok .classic
  | some .flow => .ok (.flow (signed32 s.powerW))
  | some .heartbeat =>
    match alertLevel s.alert with
    | some a => .ok (.heartbeat a)
    | none => .error .reservedAlert
  | none => .error .reservedMode

/-- Both paths of a tick on inputs sampled once at its start: the display path, then the LED path
(R72, R255). -/
def tick (w : Wave) (s : State) : State :=
  let now := unsigned32 s.nowMs
  ledPath now w (healthStatus s.health) (displayPath now s.telemetry s)

/-- SYS.TICK (R255, R256). -/
def execSysTick (s : State) : Result :=
  requireStarted s (requireBusIdle s
    (match tickWave s with
     | .ok w => .next (tick w s)
     | .error r => .refused r))

end Sys2Proof.Machine
end

