-- ==== Sys2Proof/Machine/Dispatch.lean ====
section
/-! DEFINITION. One arm per command: each calls its meaning. -/

namespace Sys2Proof.Machine

def exec (i : Instr) (s : State) : Host.Outcome State Fault Refusal :=
  match i with
  -- spec/45_system.md
  | .sysInit allocOk present => Sys2Proof.Machine.execSysInit allocOk present s
  | .sysTick => Sys2Proof.Machine.execSysTick s
  -- spec/40_brightness.md
  | .brtClassic => Sys2Proof.Machine.execBrtClassic s
  | .brtFlow => Sys2Proof.Machine.execBrtFlow s
  | .brtHeartbeat alert => Sys2Proof.Machine.execBrtHeartbeat alert s
  -- spec/41_color_rotator.md
  | .color health => Sys2Proof.Machine.execColor health s
  | .rot => Sys2Proof.Machine.execRot s
  -- spec/42_segment_encoder.md
  | .enc char => Sys2Proof.Machine.execEnc char s
  -- spec/43_formatter.md
  | .fmtText => Sys2Proof.Machine.execFmtText s
  | .fmtInt leadingZero => Sys2Proof.Machine.execFmtInt leadingZero s
  | .fmtSmall => Sys2Proof.Machine.execFmtSmall s
  | .fmtFixs dots => Sys2Proof.Machine.execFmtFixs dots s
  | .fmtFix2 dots => Sys2Proof.Machine.execFmtFix2 dots s
  | .fmtTime colon => Sys2Proof.Machine.execFmtTime colon s
  -- spec/44_protocol_driver.md
  | .busStart => Sys2Proof.Machine.execBusStart s
  | .busStop => Sys2Proof.Machine.execBusStop s
  | .busByte byte => Sys2Proof.Machine.execBusByte byte s
  | .dispWrite => Sys2Proof.Machine.execDispWrite s
  | .dispBright level => Sys2Proof.Machine.execDispBright level s

end Sys2Proof.Machine
end

