-- ==== Sys2Proof/Machine/HostPort.lean ====
section
/-! DEFINITION. The host window and the environment (spec/10_state.md R26, spec/20_memory.md R60, R61, R67,
R68): register reads and writes, the write to CMD that runs a command, and the input registers. The
argument `strict` says whether a read of a register that holds no value is refused (R23, R276 item 2):
the machine reads the register, the strict machine of Safety.lean refuses (log 4). -/

namespace Sys2Proof.Machine

/-- The registers of the window (R26). -/
inductive Reg where
  | cmd
  | status
  | a0
  | a1
  | res
  | nowMs
  | mode
  | alert
  | health
  | powerW
  | charge
  | voltDv
  | currDa
  | capWh
  | frame
  | led
  | lastS
  deriving DecidableEq, Repr

/-- The register map (R26); offsets 0x44 and above are reserved (R61). -/
def regAt (off : Byte) : Option Reg :=
  match off.toNat with
  | 0x00 => some .cmd
  | 0x04 => some .status
  | 0x08 => some .a0
  | 0x0C => some .a1
  | 0x10 => some .res
  | 0x14 => some .nowMs
  | 0x18 => some .mode
  | 0x1C => some .alert
  | 0x20 => some .health
  | 0x24 => some .powerW
  | 0x28 => some .charge
  | 0x2C => some .voltDv
  | 0x30 => some .currDa
  | 0x34 => some .capWh
  | 0x38 => some .frame
  | 0x3C => some .led
  | 0x40 => some .lastS
  | _ => none

/-- The register a host access names, or why the access is refused (R61, R67). -/
def accessReg (size : AccessSize) (off : Byte) : Except Refusal Reg :=
  if size ≠ .word then .error .narrowAccess
  else if off.toNat % 4 ≠ 0 then .error .misalignedAccess
  else
    match regAt off with
    | some r => .ok r
    | none => .error .reservedOffset

/-- The environment's write to an input register; bits above its width are ignored (R26, R28 to R33). -/
def driveInput (reg : InputReg) (data : Word) (s : State) : State :=
  match reg with
  | .nowMs => { s with nowMs := data }
  | .mode => { s with mode := data.setWidth 2 }
  | .alert => { s with alert := data.setWidth 2 }
  | .health => { s with health := data.setWidth 2 }
  | .powerW => { s with powerW := data }
  | .charge => { s with charge := data }
  | .voltDv => { s with voltDv := data }
  | .currDa => { s with currDa := data }
  | .capWh => { s with capWh := data }

/-- The millisecond counter counts up by one each millisecond and wraps to 0 after 4294967295 (R281). -/
def elapseMs (ms : Nat) (s : State) : State := { s with nowMs := s.nowMs + BitVec.ofNat 32 ms }

/-- Which commands read A0 (R81). SYS.INIT reads it with alloc_ok = 1 only (R250). -/
def readsA0 : Instr → Bool
  | .sysInit allocOk _ => allocOk
  | .brtClassic | .brtFlow | .brtHeartbeat _ | .color _ | .rot => true
  | .fmtText | .fmtInt _ | .fmtSmall | .fmtFixs _ | .fmtFix2 _ | .fmtTime _ | .dispWrite => true
  | .sysTick | .enc _ | .busStart | .busStop | .busByte _ | .dispBright _ => false

/-- Which commands read A1 (R81). -/
def readsA1 : Instr → Bool
  | .brtFlow | .fmtSmall | .fmtFixs _ | .fmtTime _ => true
  | .sysInit _ _ | .sysTick | .brtClassic | .brtHeartbeat _ | .color _ | .rot | .enc _ => false
  | .fmtText | .fmtInt _ | .fmtFix2 _ | .busStart | .busStop => false
  | .busByte _ | .dispWrite | .dispBright _ => false

/-- The argument registers the command reads hold values (R23, R276 item 2). -/
def argsHeld (i : Instr) (s : State) : Bool :=
  (!readsA0 i || s.held.a0) && (!readsA1 i || s.held.a1)

/-- The register holds a value for a host read (R23, R42): STATUS when every field does, LED when BRT and
the colour do, LAST_S while LAST_VALID = 1 (R36). -/
def regHeld (s : State) : Reg → Bool
  | .a0 => s.held.a0
  | .a1 => s.held.a1
  | .res => s.held.res
  | .frame => s.held.frame
  | .status => s.held.maxBrightness && s.held.bright && s.held.ack
  | .led => s.held.brt && s.held.led
  | .lastS => s.lastValid
  | .cmd => false
  | .nowMs | .mode | .alert | .health | .powerW | .charge | .voltDv | .currDa | .capWh => true

/-- The word a register reads as; bits above its width are 0 (R26). CMD has none (R61). -/
def readReg (s : State) : Reg → Word
  | .cmd => 0
  | .status => s.status
  | .a0 => s.a0
  | .a1 => s.a1
  | .res => s.res
  | .nowMs => s.nowMs
  | .mode => s.mode.setWidth 32
  | .alert => s.alert.setWidth 32
  | .health => s.health.setWidth 32
  | .powerW => s.powerW
  | .charge => s.charge
  | .voltDv => s.voltDv
  | .currDa => s.currDa
  | .capWh => s.capWh
  | .frame => s.frame
  | .led => s.led
  | .lastS => s.lastS

/-- A host read (R60, R61, R68): no side effect on the block; the word goes to the host (log 10). -/
def hostRead (strict : Bool) (size : AccessSize) (off : Byte) (s : State) : Result :=
  match accessReg size off with
  | .error r => .refused r
  | .ok .cmd => .refused .writeOnlyRegister
  | .ok r =>
    if strict && !regHeld s r then .refused .noValue
    else .next { s with readData := readReg s r }

/-- A write to CMD consumes the command word and runs the command to completion (R24, R68, R75, R80, R90). -/
def runCommand (strict : Bool) (data : Word) (s : State) : Result :=
  let t := { s with cmd := commandWord data }
  match decode (commandWord data) with
  | .error e => .refused (.reservedWord e)
  | .ok i => if strict && !argsHeld i s then .refused .noValue else exec i t

/-- A host write to a register (R26, R61, R68). -/
def writeReg (strict : Bool) (r : Reg) (data : Word) (s : State) : Result :=
  match r with
  | .cmd => runCommand strict data s
  | .a0 => .next { s with a0 := data, held := { s.held with a0 := true } }
  | .a1 => .next { s with a1 := data, held := { s.held with a1 := true } }
  | .mode => .next (driveInput .mode data s)
  | .alert => .next (driveInput .alert data s)
  | .health => .next (driveInput .health data s)
  | .powerW => .next (driveInput .powerW data s)
  | .charge => .next (driveInput .charge data s)
  | .voltDv => .next (driveInput .voltDv data s)
  | .currDa => .next (driveInput .currDa data s)
  | .capWh => .next (driveInput .capWh data s)
  | .status | .res | .nowMs | .frame | .led | .lastS => .refused .readOnlyRegister

/-- A host write to the window (R60, R61, R67). -/
def hostWrite (strict : Bool) (size : AccessSize) (off : Byte) (data : Word) (s : State) : Result :=
  match accessReg size off with
  | .error r => .refused r
  | .ok r => writeReg strict r data s

/-- Power-on reset (R42, R290). What the environment drives, the configuration and the model's own fields
go on (log 13). -/
def powerOn (s : State) : State :=
  { State.powerOnWith s.cfg with
    nowMs := s.nowMs, mode := s.mode, alert := s.alert, health := s.health, powerW := s.powerW
    charge := s.charge, voltDv := s.voltDv, currDa := s.currDa, capWh := s.capWh
    pending := s.pending, readData := s.readData, drawn := s.drawn }

/-- One action of the host or the environment. -/
def performAction (strict : Bool) (a : Action) (s : State) : Result :=
  match a with
  | .hostWrite size off data => hostWrite strict size off data s
  | .hostRead size off => hostRead strict size off s
  | .drive reg data => .next (driveInput reg data s)
  | .elapse ms => .next (elapseMs ms s)
  | .powerOn => .next (powerOn s)

/-- The oldest action is taken; with none the block does nothing (R71, R290, log 6). -/
def takeAction (strict : Bool) (s : State) : Result :=
  match s.pending with
  | [] => .next s
  | a :: rest => performAction strict a { s with pending := rest }

/-- The offset of CMD (R26). -/
def cmdOffset : Byte := 0x00#8

/-- The host's write of a command word to CMD. -/
def commandAction (w : BitVec 16) : Action := .hostWrite .word cmdOffset (w.setWidth 32)

end Sys2Proof.Machine
end

