-- ==== Sys2Proof/Machine/Step.lean ====
section
/-! DEFINITION. One step of the machine: the oldest action of the host or the environment is taken
(spec/10_state.md R20: 'A model has one step per command'). -/

namespace Sys2Proof.Machine

/-- One step. -/
def step (s : State) : Host.Outcome State Fault Refusal := takeAction false s

/-- `s` with the host about to write to CMD the command word whose low `nbits` bits are those of `w`:
where step takes its next command from (log 6). -/
def State.withFetchWord (s : State) (nbits w : Nat) : State :=
  { s with pending := commandAction (BitVec.ofNat 16 (w % 2 ^ nbits)) :: s.pending }

end Sys2Proof.Machine
end

