-- ==== Sys2Proof/Machine/Program.lean ====
section
/-! DEFINITION. The host-program notation (spec/30_encoding.md R95 to R97): each line and each
pseudo-command as the actions it stands for. -/

namespace Sys2Proof.Machine

/-- The code of the `i`-th character of a quoted string, 0x00 past its end (R87, R96). A longer string keeps
its first characters, as R185 says of a text. DESIGN CHOICE (log 20): the code of a character outside ASCII is
the low 8 bits of its code point; R87 gives codes up to 0x7F only. -/
def charCode (cs : List Char) (i : Nat) : Byte :=
  match cs[i]? with
  | some c => BitVec.ofNat 8 c.toNat
  | none => 0x00#8

/-- A quoted string packed as TEXT4 (R86, R96). -/
def text4 (str : String) : Word :=
  let cs := str.toList
  pack4 ⟨charCode cs 0, charCode cs 1, charCode cs 2, charCode cs 3⟩

/-- A quoted string packed as SUF2, padded with 0x00 (R86, R96). DESIGN CHOICE (log 20): a string of more than
two characters keeps its first two, since SUF2 holds two. -/
def suf2 (str : String) : Word :=
  let cs := str.toList
  pack4 ⟨charCode cs 0, charCode cs 1, 0x00#8, 0x00#8⟩

/-- A line of a host program (R96), and the pseudo-commands (R97). -/
inductive Line where
  /-- `A0 = <value>`. -/
  | setA0 (w : Word)
  /-- `A1 = <value>`. -/
  | setA1 (w : Word)
  /-- `IN.<REGISTER> = <value>`. -/
  | input (reg : InputReg) (w : Word)
  /-- `<MNEMONIC> <field>=<value>, ...`. -/
  | command (i : Instr)
  /-- `BRT mode=m, alert=a`. -/
  | brt (mode : AnimationMode) (alert : BitVec 2)
  /-- `FMT.FIXS.D show=b`. -/
  | fmtFixsD (shown : Bool)
  /-- `formatInteger(v, leadingZero=z)`. -/
  | formatInteger (v : Int) (leadingZero : Bool)
  /-- `formatSmallInt(v, "s")`. -/
  | formatSmallInt (v : Nat) (suffix : String)
  /-- `formatFixedSuffix(num/den, "s", showDecimal=b)`. -/
  | formatFixedSuffix (num : Int) (den : Nat) (suffix : String) (showDecimal : Bool)
  /-- `write_frame(F)`. -/
  | writeFrame (f : Frame)
  /-- `set_brightness(n)`. -/
  | setBrightness (n : BitVec 3)
  deriving DecidableEq, Repr

/-- A host write to A0. -/
def setA0Action (w : Word) : Action := .hostWrite .word 0x08#8 w

/-- A host write to A1. -/
def setA1Action (w : Word) : Action := .hostWrite .word 0x0C#8 w

/-- `BRT mode=m, alert=a` is the BRT command of the mode (R97). DESIGN CHOICE (log 22): an alert other than 0
beside CLASSIC or FLOW is dropped; R97 expands 'by `m`' and says nothing of it, and R82 wants the alert
field of those two commands 0. -/
def brtCommand (mode : AnimationMode) (alert : BitVec 2) : Instr :=
  match mode with
  | .classic => .brtClassic
  | .flow => .brtFlow
  | .heartbeat => .brtHeartbeat alert

/-- `FMT.FIXS.D show=b`: dots = 2 when `b` = 1, dots = 0 when `b` = 0 (R97, R196). -/
def fixsDCommand (shown : Bool) : Instr := .fmtFixs (if shown then 2#4 else 0#4)

/-- The actions a line stands for (R96, R97). DESIGN CHOICE (log 21): an integer of formatInteger or
formatSmallInt that 32 bits cannot hold is taken modulo 2^32; R97 gives it no word. -/
def Line.actions : Line → List Action
  | .setA0 w => [setA0Action w]
  | .setA1 w => [setA1Action w]
  | .input reg w => [.drive reg w]
  | .command i => [commandAction (encode i)]
  | .brt mode alert => [commandAction (encode (brtCommand mode alert))]
  | .fmtFixsD shown => [commandAction (encode (fixsDCommand shown))]
  | .formatInteger v leadingZero =>
    [setA0Action (BitVec.ofInt 32 v), commandAction (encode (.fmtInt leadingZero))]
  | .formatSmallInt v suffix =>
    [setA0Action (BitVec.ofNat 32 v), setA1Action (suf2 suffix), commandAction (encode .fmtSmall)]
  | .formatFixedSuffix num den suffix showDecimal =>
    [setA0Action (qWord num den), setA1Action (suf2 suffix),
      commandAction (encode (fixsDCommand showDecimal))]
  | .writeFrame f => [setA0Action (pack4 f), commandAction (encode .dispWrite)]
  | .setBrightness n => [commandAction (encode (.dispBright n))]

/-- The state with a host program placed before the actions still to come. -/
def State.withProgram (s : State) (lines : List Line) : State :=
  { s with pending := lines.flatMap Line.actions ++ s.pending }

end Sys2Proof.Machine
end

