-- ==== Sys2Proof/Machine/Symbols.lean ====
section
/-! DEFINITION. Reading the trace back: bus symbols (spec/44_protocol_driver.md R228), transactions (R210)
and what the display has been sent (spec/20_memory.md R62, R64). No meaning reads these. -/

namespace Sys2Proof.Machine

/-- A bus symbol (R210). -/
inductive Symbol where
  | start
  | byte (b : Byte)
  | stop
  deriving DecidableEq, Repr

/-- What `Symbols` carries from event to event (R228). -/
structure Decoder where
  pins : Pins
  /-- The bits taken since the last symbol, first bit first. -/
  bits : List Bool
  /-- The symbols so far, oldest first. -/
  out : List Symbol
  deriving DecidableEq, Repr

/-- 'Start with CLK = 1, DIO_OUT = 1, DIO_DIR = OUT, an empty bit list' (R228). -/
def Decoder.init : Decoder := ⟨.idle, [], []⟩

/-- `v0 + 2*v1 + ... + 128*v7` (R228). -/
def byteOfBits (bits : List Bool) : Byte :=
  BitVec.ofNat 8 (bits.foldr (fun v n => v.toNat + 2 * n) 0)

/-- A rise of the clock (R228): a data bit while the block drives DIO, the ack cell while it does not.
An ack cell that does not follow eight bits outputs nothing (log 19). -/
def Decoder.clockRise (d : Decoder) : Decoder :=
  match d.pins.dioDir with
  | .out => { d with bits := d.bits ++ [d.pins.dioOut] }
  | .inp =>
    { d with
      bits := []
      out := if d.bits.length = 8 then d.out ++ [.byte (byteOfBits d.bits)] else d.out }

/-- One event (R228). -/
def Decoder.step (d : Decoder) (e : Event) : Decoder :=
  match e with
  | .dio v =>
    let t :=
      if d.pins.clk ∧ d.pins.dioDir = .out ∧ d.pins.dioOut ≠ v then
        { d with bits := [], out := d.out ++ [if v then .stop else .start] }
      else d
    { t with pins := { t.pins with dioOut := v } }
  | .clk v =>
    let t := if v ∧ ¬ d.pins.clk then d.clockRise else d
    { t with pins := { t.pins with clk := v } }
  | .dioDir x => { d with pins := { d.pins with dioDir := x } }
  | .sample _ | .ledSet _ _ _ | .ledShow => d

/-- The decoder after a list of events, from where it stands. -/
def Decoder.run (d : Decoder) (tr : List Event) : Decoder := tr.foldl Decoder.step d

/-- `Symbols(tr)` (R228). -/
def symbols (tr : List Event) : List Symbol := (Decoder.init.run tr).out

/-- How a symbol list splits into transactions: the bytes of the open one, the complete ones oldest
first, and whether every symbol stood where R210 lets it stand. -/
structure Parse where
  current : Option (List Byte)
  complete : List (List Byte)
  wellFormed : Bool
  deriving DecidableEq, Repr

/-- Before any symbol. -/
def Parse.init : Parse := ⟨none, [], true⟩

/-- A transaction is START, bytes, STOP (R210). -/
def Parse.step (p : Parse) (x : Symbol) : Parse :=
  match x, p.current with
  | .start, none => { p with current := some [] }
  | .byte b, some bs => { p with current := some (bs ++ [b]) }
  | .stop, some bs => { p with current := none, complete := p.complete ++ [bs] }
  | .start, some _ => { p with wellFormed := false }
  | .byte _, none => { p with wellFormed := false }
  | .stop, none => { p with wellFormed := false }

/-- The transactions of a symbol list. -/
def parse (xs : List Symbol) : Parse := xs.foldl Parse.step .init

/-- The four data bytes of a frame transaction: after the data-write command and 0xC0, or after 0xC0
alone where the data-write command is a transaction of its own (R94, R226, log 14). -/
def frameOfTransaction (c : Config) (bs : List Byte) : Option Frame :=
  match c.splitDataCmd, bs with
  | false, [d, a, f0, f1, f2, f3] =>
    if d = c.cmdDataWrite ∧ a = cmdAddr0 then some ⟨f0, f1, f2, f3⟩ else none
  | true, [a, f0, f1, f2, f3] => if a = cmdAddr0 then some ⟨f0, f1, f2, f3⟩ else none
  | _, _ => none

/-- The byte of a control transaction, 0x88 to 0x8F (R93, R94). -/
def controlOfTransaction (bs : List Byte) : Option Byte :=
  match bs with
  | [b] => if b &&& 0xF8#8 = 0x88#8 then some b else none
  | _ => none

/-- What the device has been sent (R64); none before the first complete transaction of its kind. -/
structure DisplayView where
  cells : Option Frame
  ctrl : Option Byte
  deriving DecidableEq, Repr

/-- `Display(TRACE)` (R64): the most recent complete frame and control transactions. -/
def display (c : Config) (tr : List Event) : DisplayView where
  cells := ((parse (symbols tr)).complete.filterMap (frameOfTransaction c)).getLast?
  ctrl := ((parse (symbols tr)).complete.filterMap controlOfTransaction).getLast?

/-- The levels of the pins after an event, from the trace alone. -/
def Pins.after (p : Pins) : Event → Pins
  | .clk v => { p with clk := v }
  | .dio v => { p with dioOut := v }
  | .dioDir d => { p with dioDir := d }
  | .sample _ | .ledSet _ _ _ | .ledShow => p

/-- `Dio(v)` stands while DIO_DIR = OUT, `Sample(v)` while DIO_DIR = IN and the clock is high
(R40, R211, R216). -/
def Pins.allows (p : Pins) : Event → Bool
  | .dio _ => p.dioDir = .out
  | .sample _ => p.dioDir = .inp ∧ p.clk
  | .clk _ | .dioDir _ | .ledSet _ _ _ | .ledShow => true

/-- Every event of the list stands where it may, from pins `p`. -/
def lawfulFrom (p : Pins) : List Event → Bool
  | [] => true
  | e :: es => p.allows e && lawfulFrom (p.after e) es

/-- The symbols of one frame write (R94, R226). -/
def frameSymbols (c : Config) (bright : BitVec 3) (f : Frame) : List Symbol :=
  [.start, .byte c.cmdDataWrite] ++ (if c.splitDataCmd then [.stop, .start] else []) ++
    [.byte cmdAddr0, .byte f.b0, .byte f.b1, .byte f.b2, .byte f.b3, .stop,
      .start, .byte (controlByte bright), .stop]

end Sys2Proof.Machine
end

