-- ==== Sys2Proof/Safety.lean ====
section
/-! DEFINITION. The terms claims are stated in: the strict machine, the invariant of the block, and what it
means for a state to differ from another only by what a command may write. -/

namespace Sys2Proof.Safety

open Sys2Proof.Machine

/-- The strict machine: as `step`, and besides refusing to read a register that holds no value, as
spec/10_state.md R23 and spec/60_exceptions.md R276 item 2 ask (log 4). -/
def strictStep (s : State) : Result := takeAction true s

/-- The command, and a refusal where an argument register it reads holds no value (R23, log 4). -/
def strictExec (i : Instr) (s : State) : Result :=
  if argsHeld i s then exec i s else .refused .noValue

/-- The word a command returns, where it answers a next state. -/
def resOf (r : Result) : Option Word :=
  match r with
  | .next t => some t.res
  | .fault _ => none
  | .refused _ => none

/-- A frame can be shown: the precondition of every FMT command, DISP.WRITE and BUS.START (R182). -/
def DisplayReady (s : State) : Prop := s.started = true ∧ s.present = true ∧ s.busOpen = false

/-- A transaction is open: the precondition of BUS.STOP and BUS.BYTE (R214, R217). -/
def DisplayOpen (s : State) : Prop := s.started = true ∧ s.present = true ∧ s.busOpen = true

/-- The commands that work before SYS.INIT (R251, R276 item 3). -/
def worksUnstarted : Instr → Bool
  | .sysInit _ _ | .enc _ | .rot => true
  | _ => false

/-- The commands that write a frame to the display (R182, R225). -/
def WritesFrame (i : Instr) : Prop :=
  i = .fmtText ∨ (∃ z, i = .fmtInt z) ∨ i = .fmtSmall ∨ (∃ d, i = .fmtFixs d) ∨ (∃ d, i = .fmtFix2 d) ∨
    (∃ c, i = .fmtTime c) ∨ i = .dispWrite

/-- A tick of a block whose display is ready runs and refreshes: LAST_VALID = 0 or a new whole second, and
no reserved MODE or ALERT (R256, R257). -/
def TickRefreshes (s : State) : Prop :=
  (s.lastValid = false ∨ s.lastS.toNat ≠ s.nowMs.toNat / 1000) ∧ s.mode ≠ 3#2 ∧
    (s.mode = 2#2 → s.alert ≠ 3#2)

/-- The command shows a frame: an FMT command, DISP.WRITE, or a SYS.TICK that refreshes. -/
def ShowsFrame (i : Instr) (s : State) : Prop := WritesFrame i ∨ (i = .sysTick ∧ TickRefreshes s)

/-- The display commands (R276 item 4). -/
def isDisplayCommand : Instr → Bool
  | .fmtText | .fmtInt _ | .fmtSmall | .fmtFixs _ | .fmtFix2 _ | .fmtTime _ => true
  | .dispWrite | .dispBright _ | .busStart | .busStop | .busByte _ => true
  | _ => false

/-- The commands that need the bus closed (R276 item 5). -/
def needsBusClosed : Instr → Bool
  | .fmtText | .fmtInt _ | .fmtSmall | .fmtFixs _ | .fmtFix2 _ | .fmtTime _ => true
  | .busStart | .dispWrite | .sysTick | .sysInit _ _ => true
  | _ => false

/-- The commands that need the bus open (R276 item 5). -/
def needsBusOpen : Instr → Bool
  | .busStop | .busByte _ => true
  | _ => false

/-- The A0 column of R81: the rows in which it is not 'unused'. SYS.INIT needs it with alloc_ok = 1 only
(R250). -/
inductive A0Column : Instr → Prop where
  | sysInit (present : Bool) : A0Column (.sysInit true present)
  | brtClassic : A0Column .brtClassic
  | brtFlow : A0Column .brtFlow
  | brtHeartbeat (alert : BitVec 2) : A0Column (.brtHeartbeat alert)
  | color (health : BitVec 2) : A0Column (.color health)
  | rot : A0Column .rot
  | fmtText : A0Column .fmtText
  | fmtInt (leadingZero : Bool) : A0Column (.fmtInt leadingZero)
  | fmtSmall : A0Column .fmtSmall
  | fmtFixs (dots : BitVec 4) : A0Column (.fmtFixs dots)
  | fmtFix2 (dots : BitVec 4) : A0Column (.fmtFix2 dots)
  | fmtTime (colon : Bool) : A0Column (.fmtTime colon)
  | dispWrite : A0Column .dispWrite

/-- The A1 column of R81: the rows in which it is not 'unused'. -/
inductive A1Column : Instr → Prop where
  | brtFlow : A1Column .brtFlow
  | fmtSmall : A1Column .fmtSmall
  | fmtFixs (dots : BitVec 4) : A1Column (.fmtFixs dots)
  | fmtTime (colon : Bool) : A1Column (.fmtTime colon)

/-- The situations of R276 in which a command has no meaning: items 2 to 6. -/
inductive SpecRefuses (i : Instr) (s : State) : Prop where
  /-- Item 2: it reads A0 while A0 holds no value. -/
  | noA0 (h : s.held.a0 = false) (hi : A0Column i)
  /-- Item 2: it reads A1 while A1 holds no value. -/
  | noA1 (h : s.held.a1 = false) (hi : A1Column i)
  /-- Item 3. -/
  | notStarted (h : s.started = false) (hi : worksUnstarted i = false)
  /-- Item 4. -/
  | noDisplay (h : s.present = false) (hi : isDisplayCommand i = true)
  /-- Item 5, first half. -/
  | busOpen (h : s.busOpen = true) (hi : needsBusClosed i = true)
  /-- Item 5, second half. -/
  | busClosed (h : s.busOpen = false) (hi : needsBusOpen i = true)
  /-- Item 6, first half. -/
  | reservedMode (h : s.mode = 3#2) (hi : i = .sysTick)
  /-- Item 6, second half. -/
  | reservedAlert (h : s.mode = 2#2) (ha : s.alert = 3#2) (hi : i = .sysTick)

/-- The command words the spec reserves, by OP and MOD: an OP with no row (R88), a reserved mode or alert
(R82, R89), a 1 in a bit that must be zero (R81, R90). -/
abbrev ReservedWord (op m : Nat) : Prop :=
  (op = 0x00 ∨ (0x03 ≤ op ∧ op ≤ 0x0F) ∨ (0x11 ≤ op ∧ op ≤ 0x17) ∨ (0x19 ≤ op ∧ op ≤ 0x1B) ∨
    (0x1D ≤ op ∧ op ≤ 0x1F) ∨ (0x21 ≤ op ∧ op ≤ 0x2F) ∨ (0x36 ≤ op ∧ op ≤ 0x3F) ∨
    (0x43 ≤ op ∧ op ≤ 0x47) ∨ (0x4A ≤ op ∧ op ≤ 0xFF)) ∨
  (op = 0x10 ∧ (m % 4 = 3 ∨ 16 ≤ m ∨ m / 4 % 4 = 3 ∨ (m % 4 ≤ 1 ∧ m / 4 % 4 ≠ 0))) ∨
  ((op = 0x01 ∨ op = 0x18) ∧ 4 ≤ m) ∨
  ((op = 0x02 ∨ op = 0x1C ∨ op = 0x30 ∨ op = 0x32 ∨ op = 0x40 ∨ op = 0x41 ∨ op = 0x48) ∧ m ≠ 0) ∨
  ((op = 0x31 ∨ op = 0x35) ∧ 2 ≤ m) ∨ ((op = 0x33 ∨ op = 0x34) ∧ 16 ≤ m) ∨ (op = 0x49 ∧ 8 ≤ m)

/-- An event with the level of a sample forgotten. -/
def eraseSample : Event → Event
  | .sample _ => .sample false
  | e => e

/-- `t` is `s` but for ACK, the draws and the levels of the `Sample` events. -/
def SameButSamples (s t : State) : Prop :=
  t = { s with ack := t.ack, drawn := t.drawn, trace := t.trace } ∧
    t.trace.map eraseSample = s.trace.map eraseSample

/-- The decoder of R228 after the whole trace. -/
def traced (s : State) : Decoder := Decoder.init.run s.trace

/-- The transactions the trace spells. -/
def transactions (s : State) : Parse := parse (symbols s.trace)

/-- What holds between any two steps. -/
structure Inv (s : State) : Prop where
  /-- The configuration is one the spec allows (R131, R169). -/
  cfg_valid : s.cfg.Valid
  /-- A display is present only in a started block (R27, R250). -/
  present_started : s.present = true → s.started = true
  /-- A transaction is open only on a block whose display is present (R276 item 4). -/
  open_present : s.busOpen = true → s.present = true
  /-- A started block holds MAX_BRIGHTNESS and BRIGHT (R42). -/
  started_held : s.started = true → s.held.maxBrightness = true ∧ s.held.bright = true
  /-- With a display the pins hold levels (R42). -/
  present_held : s.present = true → s.held.pins = true
  /-- LAST_S is a whole-second count of the 32-bit millisecond counter (R36, R157). -/
  last_second : s.lastValid = true → s.lastS.toNat ≤ 4294967
  /-- With a display the pins are where the trace says (R39, R40). -/
  pins_traced : s.present = true → (traced s).pins = s.pins
  /-- Between transactions the bus is idle (R211, R232). -/
  closed_idle : s.busOpen = false → (traced s).pins = .idle
  /-- Inside a transaction the data line is driven, and CLK is high only right after START, where DIO is
  low (R232). -/
  open_driven : s.busOpen = true →
    (traced s).pins.dioDir = .out ∧ ((traced s).pins.clk = false ∨ (traced s).pins.dioOut = false)
  /-- No command ends inside a byte (R232). -/
  no_loose_bits : (traced s).bits = []
  /-- The trace spells transactions, START bytes STOP, the last one open iff BUS_OPEN (R27, R210). -/
  well_bracketed : (transactions s).wellFormed = true
  open_iff : (transactions s).current.isSome = s.busOpen
  /-- Data is driven while DIO_DIR = OUT and sampled while DIO_DIR = IN (R40, R211). -/
  lawful : lawfulFrom .idle s.trace = true

/-- `t` is `s` but for RES, which now holds a value. -/
def OnlyRes (s t : State) : Prop :=
  t = { s with res := t.res, held := { s.held with res := true } }

/-- `t` is `s` but for BRT and RES, which now hold values. -/
def OnlyBrtRes (s t : State) : Prop :=
  t = { s with brt := t.brt, res := t.res, held := { s.held with brt := true, res := true } }

/-- `t` is `s` after the frame `f` was shown and nothing else: FRAME holds `f`; the pins end idle; seven
samples were drawn and the last is in ACK; TRACE grew by the events of one frame write, which from idle
pins spell the symbols of R94 (R182, R225 to R227). -/
structure FrameShown (s t : State) (f : Frame) : Prop where
  frame : unpack4 t.frame = f
  ack : t.ack = Config.draw (s.drawn + 6)
  only : t =
    { s with
      frame := t.frame, ack := t.ack, trace := t.trace, pins := .idle, busOpen := false
      drawn := s.drawn + 7, held := { s.held with frame := true, ack := true } }
  sent : ∃ events : List Event,
    t.trace = s.trace ++ events ∧
    events.length = (if s.cfg.splitDataCmd then 225 else 220) ∧
    ∀ d : Decoder, d.pins = .idle →
      d.run events = ⟨.idle, [], d.out ++ frameSymbols s.cfg s.bright f⟩

end Sys2Proof.Safety
end

