-- ==== Sys2Proof/Certificates/Slice0/Obligations.lean ====
section
/-! DEFINITION. The statements for the provers. `OBLIGATIONS.json` lists them with the rules they rest on. -/

open Sys2Proof Sys2Proof.Machine Sys2Proof.Safety

/-! ### The command word (spec/30_encoding.md) -/

/-- R80, R81, R83: decoding the word of a well-formed command gives the command back, with every field. -/
def Obligations.DecodeOfEncodeIsTheCommand : Prop :=
  ∀ i : Instr, i.wellFormed = true → decode (encode i) = .ok i

/-- R80, R81: a word the decoder accepts is the word of the command it gives, and the command is
well formed: no bit of an accepted word is ignored. -/
def Obligations.EncodeOfDecodedIsTheWord : Prop :=
  ∀ (w : BitVec 16) (i : Instr), decode w = .ok i → encode i = w ∧ i.wellFormed = true

/-- R83: the decoder accepts exactly the words some row of the match-and-mask table selects, but for
0x100E, and gives the command of that row; no two rows select the same word. -/
def Obligations.DecoderAcceptsExactlyTheTable : Prop :=
  (∀ w : BitVec 16,
    (∃ i, decode w = .ok i) ↔ (∃ r ∈ commandTable, (w &&& r.mask) = r.pattern) ∧ w ≠ 0x100E#16) ∧
  (∀ (w : BitVec 16) (i : Instr), decode w = .ok i →
    ∃ r ∈ commandTable, (w &&& r.mask) = r.pattern ∧ r.mnemonic = i.mnemonic) ∧
  (∀ w : BitVec 16, ∀ r ∈ commandTable, ∀ r' ∈ commandTable,
    (w &&& r.mask) = r.pattern → (w &&& r'.mask) = r'.pattern → r = r')

/-- R81: words written out from the table, one for each family, decode to their commands. -/
def Obligations.SampleWordsDecode : Prop :=
  decode 0x0103#16 = .ok (.sysInit true true) ∧ decode 0x0101#16 = .ok (.sysInit true false) ∧
  decode 0x0200#16 = .ok .sysTick ∧ decode 0x1001#16 = .ok .brtFlow ∧
  decode 0x100A#16 = .ok (.brtHeartbeat 2#2) ∧ decode 0x1801#16 = .ok (.color 1#2) ∧
  decode 0x1C00#16 = .ok .rot ∧ decode 0x206B#16 = .ok (.enc 0x6B#8) ∧
  decode 0x3101#16 = .ok (.fmtInt true) ∧ decode 0x330F#16 = .ok (.fmtFixs 15#4) ∧
  decode 0x428A#16 = .ok (.busByte 0x8A#8) ∧ decode 0x4905#16 = .ok (.dispBright 5#3)

/-- R88, R89, R90: a host write to CMD of a word with a reserved OP, with a reserved mode or alert, or with a
1 in a bit that must be zero is refused as a reserved word; every other word is some command's. -/
def Obligations.ReservedWordsAreRefused : Prop :=
  ∀ (s : State) (data : Word) (rest : List Action),
    s.pending = .hostWrite .word cmdOffset data :: rest →
    let op := data.toNat / 256 % 256
    let m := data.toNat % 256
    (ReservedWord op m → ∃ e, step s = .refused (.reservedWord e)) ∧
    (¬ ReservedWord op m → ∃ i, decode (data.setWidth 16) = .ok i)

/-! ### The host window and the step (spec/10_state.md, spec/20_memory.md) -/

/-- R20, R24, R80: when the oldest action is a host write to CMD of a word that decodes to `i`, the step is
exec of `i`, with that action taken and the word in CMD; bits 31:16 of the data play no part. -/
def Obligations.StepRunsTheDecodedCommand : Prop :=
  ∀ (s : State) (data : Word) (rest : List Action) (i : Instr),
    s.pending = .hostWrite .word cmdOffset data :: rest →
    decode (data.setWidth 16) = .ok i →
    step s = exec i { s with pending := rest, cmd := data.setWidth 16 }

/-- The word of any well-formed command, placed for the next fetch, runs as exactly that command. -/
def Obligations.FetchedWordRunsAsItsCommand : Prop :=
  ∀ (s : State) (i : Instr), i.wellFormed = true →
    step (s.withFetchWord 16 (encode i).toNat) = exec i { s with cmd := encode i }

/-- R26, R37, R68: each readable register of the map answers its own word, and the read changes nothing of
the block. -/
def Obligations.HostReadReturnsTheRegister : Prop :=
  ∀ (s : State) (rest : List Action) (off : Byte) (w : Word),
    s.pending = .hostRead .word off :: rest →
    (off, w) ∈
      ([(0x04#8, s.status), (0x08#8, s.a0), (0x0C#8, s.a1), (0x10#8, s.res), (0x14#8, s.nowMs),
        (0x18#8, s.mode.setWidth 32), (0x1C#8, s.alert.setWidth 32), (0x20#8, s.health.setWidth 32),
        (0x24#8, s.powerW), (0x28#8, s.charge), (0x2C#8, s.voltDv), (0x30#8, s.currDa),
        (0x34#8, s.capWh), (0x38#8, s.frame),
        (0x3C#8, BitVec.ofNat 32 (s.brt.toNat * 16777216 + s.ledR.toNat * 65536 + s.ledG.toNat * 256 +
          s.ledB.toNat)),
        (0x40#8, s.lastS)] : List (Byte × Word)) →
    step s = .next { s with pending := rest, readData := w }

/-- R27: the fields of STATUS stand in the bits the rule names and the reserved bits read as 0. -/
def Obligations.StatusFieldsStandInTheirBits : Prop :=
  ∀ s : State,
    s.status.getLsbD 0 = s.started ∧ s.status.getLsbD 1 = s.present ∧
    s.status.getLsbD 2 = s.busOpen ∧ s.status.getLsbD 3 = s.ack ∧ s.status.getLsbD 4 = s.lastValid ∧
    s.status.extractLsb' 5 3 = 0#3 ∧ s.status.extractLsb' 8 8 = s.maxBrightness ∧
    s.status.extractLsb' 16 3 = s.bright ∧ s.status.extractLsb' 19 13 = 0#13

/-- R26, R28 to R33, R68: a host write to a writable register, and the environment's write to any input
register, stores the word and does nothing else; bits above a register's width are ignored. -/
def Obligations.WritesStoreTheWord : Prop :=
  ∀ (s : State) (rest : List Action) (a : Action) (w : Word) (t : State),
    s.pending = a :: rest →
    (a, t) ∈
      ([(.hostWrite .word 0x08#8 w, { s with a0 := w, held := { s.held with a0 := true } }),
        (.hostWrite .word 0x0C#8 w, { s with a1 := w, held := { s.held with a1 := true } }),
        (.hostWrite .word 0x18#8 w, { s with mode := w.extractLsb' 0 2 }),
        (.hostWrite .word 0x1C#8 w, { s with alert := w.extractLsb' 0 2 }),
        (.hostWrite .word 0x20#8 w, { s with health := w.extractLsb' 0 2 }),
        (.hostWrite .word 0x24#8 w, { s with powerW := w }),
        (.hostWrite .word 0x28#8 w, { s with charge := w }),
        (.hostWrite .word 0x2C#8 w, { s with voltDv := w }),
        (.hostWrite .word 0x30#8 w, { s with currDa := w }),
        (.hostWrite .word 0x34#8 w, { s with capWh := w }),
        (.drive .nowMs w, { s with nowMs := w }),
        (.drive .mode w, { s with mode := w.extractLsb' 0 2 }),
        (.drive .alert w, { s with alert := w.extractLsb' 0 2 }),
        (.drive .health w, { s with health := w.extractLsb' 0 2 }),
        (.drive .powerW w, { s with powerW := w }), (.drive .charge w, { s with charge := w }),
        (.drive .voltDv w, { s with voltDv := w }), (.drive .currDa w, { s with currDa := w }),
        (.drive .capWh w, { s with capWh := w })] : List (Action × State)) →
    step s = .next { t with pending := rest }

/-- R61 (and the host side of R67): a write to a reserved offset or a read-only register, a read of a
reserved offset or of CMD, and any access that is not one aligned word is refused under its own name. -/
def Obligations.HostAccessesOutsideTheMapAreRefused : Prop :=
  ∀ (s : State) (rest : List Action) (size : AccessSize) (off : Byte) (data : Word),
    ((s.pending = .hostWrite size off data :: rest ∨ s.pending = .hostRead size off :: rest) →
      (size ≠ .word → step s = .refused .narrowAccess) ∧
      (size = .word → off.toNat % 4 ≠ 0 → step s = .refused .misalignedAccess) ∧
      (size = .word → off.toNat % 4 = 0 → 0x44 ≤ off.toNat → step s = .refused .reservedOffset)) ∧
    (s.pending = .hostWrite .word off data :: rest →
      off ∈ [0x04#8, 0x10#8, 0x14#8, 0x38#8, 0x3C#8, 0x40#8] → step s = .refused .readOnlyRegister) ∧
    (s.pending = .hostRead .word 0x00#8 :: rest → step s = .refused .writeOnlyRegister)

/-- R281: the millisecond counter counts up by one each millisecond and wraps to 0 after 4294967295; its
advance changes nothing else. -/
def Obligations.CounterAdvancesAndWraps : Prop :=
  ∀ (s : State) (rest : List Action) (ms : Nat), s.pending = .elapse ms :: rest →
    ∃ t, step s = .next t ∧ t = { s with pending := rest, nowMs := t.nowMs } ∧
      t.nowMs.toNat = (s.nowMs.toNat + ms) % 4294967296

/-- R290, and the model's own: after power-on, and after the power-on action whatever came before, STARTED, PRESENT, BUS_OPEN and
LAST_VALID are 0, TRACE is empty, no other register holds a value, SYS.INIT, ENC and ROT are accepted (by
the machine that reads a register without a value: the model's choice, log 4) and every other command is
refused; the configuration and the actions to come stay (the model's choice, log 13); and with no action to
come nothing happens. -/
def Obligations.PowerOnLeavesTheBlockNotStarted : Prop :=
  let notStarted := fun u : State =>
    (u.started = false ∧ u.present = false ∧ u.busOpen = false ∧ u.lastValid = false ∧ u.trace = [] ∧
      u.held = Held.none) ∧
    (∀ i, worksUnstarted i = true → ∃ t, exec i u = .next t) ∧
    (∀ i, worksUnstarted i = false → ∃ r, exec i u = .refused r)
  (∀ c : Config, notStarted (State.powerOnWith c) ∧ (State.powerOnWith c).cfg = c ∧
    step (State.powerOnWith c) = .next (State.powerOnWith c)) ∧
  (∀ (s : State) (rest : List Action), s.pending = .powerOn :: rest →
    ∃ t, step s = .next t ∧ notStarted t ∧ t.cfg = s.cfg ∧ t.pending = rest) ∧
  (∀ s : State, s.pending = [] → step s = .next s)

/-! ### When a command has a meaning (spec/60_exceptions.md) -/

/-- R276 items 2 to 6, with the A0 and A1 columns of R81: for every well-formed command, the strict machine
answers a next state exactly where the spec names none of these situations, and there the machine answers
the same. -/
def Obligations.CommandsRunExactlyWhereTheSpecAllows : Prop :=
  ∀ (i : Instr) (s : State), i.wellFormed = true →
    ((∃ t, strictExec i s = .next t) ↔ ¬ SpecRefuses i s) ∧
    (¬ SpecRefuses i s → ∃ t, exec i s = .next t ∧ strictExec i s = .next t)

/-- R251: after a failed SYS.INIT the block is not started, and while STARTED = 0 every command other than
SYS.INIT, ENC and ROT is refused, and ENC and ROT stay usable. -/
def Obligations.UnstartedBlockRefusesAllButThree : Prop :=
  (∀ (s t : State) (present : Bool), exec (.sysInit false present) s = .next t →
    t.started = false ∧ t.res = 0#32) ∧
  (∀ (s : State) (i : Instr), s.started = false → worksUnstarted i = false →
    ∃ r, exec i s = .refused r) ∧
  (∀ (s : State) (c : Byte), s.started = false →
    (∃ t, exec (.enc c) s = .next t) ∧ ∃ t, exec .rot s = .next t)

/-- The strict machine (R23, log 4) refuses, for want of a value, exactly where the oldest action is a host
write to CMD of a word that decodes to a command an argument register of which holds no value, or a host read
of a readable register that holds none; everywhere else it does what the machine does. -/
def Obligations.StrictMachineOnlyAddsRefusals : Prop :=
  ∀ s : State,
    let unheldArgument := ∃ (data : Word) (rest : List Action) (i : Instr),
      s.pending = .hostWrite .word cmdOffset data :: rest ∧ decode (data.setWidth 16) = .ok i ∧
        argsHeld i s = false
    let unheldRead := ∃ (off : Byte) (rest : List Action) (r : Reg),
      s.pending = .hostRead .word off :: rest ∧ regAt off = some r ∧ r ≠ .cmd ∧ regHeld s r = false
    (strictStep s = .refused .noValue ↔ unheldArgument ∨ unheldRead) ∧
    (¬ (unheldArgument ∨ unheldRead) → strictStep s = step s) ∧
    (∀ t, strictStep s = .next t → step s = .next t) ∧
    (∀ t, step s = .next t → strictStep s = .next t ∨ strictStep s = .refused .noValue)

/-- R23, R42 (which marks LED, STATUS and LAST_S follow is log 4): by the strict machine a host read of a
register that holds no value is refused, and of one that holds a value answers as the machine does; the input
registers always hold one. -/
def Obligations.StrictMachineRefusesUnheldReads : Prop :=
  ∀ (s : State) (rest : List Action) (off : Byte) (holds : Bool),
    s.pending = .hostRead .word off :: rest →
    (off, holds) ∈
      ([(0x08#8, s.held.a0), (0x0C#8, s.held.a1), (0x10#8, s.held.res), (0x38#8, s.held.frame),
        (0x3C#8, s.held.brt && s.held.led), (0x40#8, s.lastValid),
        (0x04#8, s.held.maxBrightness && s.held.bright && s.held.ack),
        (0x14#8, true), (0x18#8, true), (0x1C#8, true), (0x20#8, true), (0x24#8, true), (0x28#8, true),
        (0x2C#8, true), (0x30#8, true), (0x34#8, true)] : List (Byte × Bool)) →
    (holds = false → strictStep s = .refused .noValue) ∧
    (holds = true → ∃ t, strictStep s = .next t ∧ step s = .next t)

/-! ### The brightness engine (spec/40_brightness.md) -/

/-- R125: BRT.CLASSIC on a started block writes the symmetric triangle to BRT and RES and nothing else;
without SYS.INIT, and for the strict machine without a value in A0, it is refused. -/
def Obligations.ClassicIsTheSymmetricTriangle : Prop :=
  ∀ s : State,
    let p := s.a0.toNat % 3000
    let maxb := s.maxBrightness.toNat
    (s.started = true → ∃ t, exec .brtClassic s = .next t ∧ OnlyBrtRes s t ∧
      t.res = t.brt.setWidth 32 ∧
      t.brt.toNat = if p < 1500 then maxb * p / 1500 else maxb * (3000 - p) / 1500) ∧
    (s.started = false → exec .brtClassic s = .refused .notStarted) ∧
    (s.held.a0 = false → strictExec .brtClassic s = .refused .noValue)

/-- R126: BRT.CLASSIC is periodic where the counter does not wrap, symmetric, has its only full brightness
at phase 1500, and across a wrap its phase is 2296 less than periodicity would give. -/
def Obligations.ClassicLaws : Prop :=
  (∀ s : State, s.a0.toNat + 3000 < 4294967296 →
    resOf (exec .brtClassic { s with a0 := s.a0 + 3000#32 }) = resOf (exec .brtClassic s)) ∧
  (∀ (s : State) (x y : Word), 1 ≤ x.toNat % 3000 → y.toNat % 3000 = 3000 - x.toNat % 3000 →
    resOf (exec .brtClassic { s with a0 := x }) = resOf (exec .brtClassic { s with a0 := y })) ∧
  (∀ s : State, s.started = true → 1 ≤ s.maxBrightness.toNat →
    (resOf (exec .brtClassic s) = some (s.maxBrightness.setWidth 32) ↔ s.a0.toNat % 3000 = 1500)) ∧
  (∀ (t : Word) (k : Nat), 4294967296 ≤ t.toNat + k → t.toNat + k < 8589934592 →
    ((t + BitVec.ofNat 32 k).toNat % 3000 + 2296) % 3000 = (t.toNat + k) % 3000) ∧
  (∀ s : State, s.started = true → s.maxBrightness = 255#8 →
    resOf (exec .brtClassic { s with a0 := 4294967000#32 + 3000#32 }) ≠
      resOf (exec .brtClassic { s with a0 := 4294967000#32 }))

/-- R127, R128: BRT.FLOW on a started block writes the triangle whose midpoint is 95 %, 5 % or 50 % of the
period by the power in the discharge direction; more than 50 W, strictly, shifts it. -/
def Obligations.FlowMidpointFollowsThePower : Prop :=
  ∀ s : State,
    let p := s.a0.toNat % 3000
    let maxb := s.maxBrightness.toNat
    let d := if s.cfg.dischargePositive then s.a1.toInt else -s.a1.toInt
    (∀ m : Nat, s.started = true →
      (d > 50 ∧ m = 2850) ∨ (d < -50 ∧ m = 150) ∨ (-50 ≤ d ∧ d ≤ 50 ∧ m = 1500) →
      ∃ t, exec .brtFlow s = .next t ∧ OnlyBrtRes s t ∧ t.res = t.brt.setWidth 32 ∧
        t.brt.toNat = if p < m then maxb * p / m else maxb * (3000 - p) / (3000 - m)) ∧
    (s.started = false → exec .brtFlow s = .refused .notStarted) ∧
    (s.held.a0 = false ∨ s.held.a1 = false → strictExec .brtFlow s = .refused .noValue)

/-- R129: BRT.FLOW is periodic for a fixed power where the counter does not wrap, peaks only at phase 2850
or 150 when the midpoint is shifted, equals BRT.CLASSIC when it is not, and is 0 at phase 0. -/
def Obligations.FlowLaws : Prop :=
  ∀ s : State,
    let d := if s.cfg.dischargePositive then s.a1.toInt else -s.a1.toInt
    (s.a0.toNat + 3000 < 4294967296 →
      resOf (exec .brtFlow { s with a0 := s.a0 + 3000#32 }) = resOf (exec .brtFlow s)) ∧
    (s.started = true → 1 ≤ s.maxBrightness.toNat → d > 50 →
      (resOf (exec .brtFlow s) = some (s.maxBrightness.setWidth 32) ↔ s.a0.toNat % 3000 = 2850)) ∧
    (s.started = true → 1 ≤ s.maxBrightness.toNat → d < -50 →
      (resOf (exec .brtFlow s) = some (s.maxBrightness.setWidth 32) ↔ s.a0.toNat % 3000 = 150)) ∧
    (-50 ≤ d → d ≤ 50 → exec .brtFlow s = exec .brtClassic s) ∧
    (s.started = true → s.a0.toNat % 3000 = 0 → resOf (exec .brtFlow s) = some 0#32)

/-- R130 to R133: BRT.HEARTBEAT on a started block writes the piecewise-linear curve over the period of the
alert level; exactly one segment owns each phase, and the reserved alert is refused. -/
def Obligations.HeartbeatIsThePiecewiseCurve : Prop :=
  ∀ s : State,
    let knots : Vector Nat 8 := #v[0, 10, 20, 25, 30, 40, 55, 100]
    let y := s.cfg.hb.levels
    (∀ (alert : BitVec 2) (period : Nat), s.started = true →
      (alert, period) ∈ ([(0#2, 1714), (1#2, 857), (2#2, 600)] : List (BitVec 2 × Nat)) →
      let p := s.a0.toNat % period
      (∃! i : Fin 7, knots[i.val] * period ≤ 100 * p ∧ 100 * p < knots[i.val + 1] * period) ∧
      ∀ i : Fin 7, knots[i.val] * period ≤ 100 * p → 100 * p < knots[i.val + 1] * period →
        let n : Int := 100 * p - knots[i.val] * period
        let d : Int := (knots[i.val + 1] - knots[i.val]) * period
        let num : Int := y[i.val] * d + ((y[i.val + 1] : Int) - y[i.val]) * n
        ∃ t, exec (.brtHeartbeat alert) s = .next t ∧ OnlyBrtRes s t ∧ t.res = t.brt.setWidth 32 ∧
          (t.brt.toNat : Int) =
            max 0 (min (s.maxBrightness.toNat : Int) (s.maxBrightness.toNat * num / (s.cfg.hb.den * d)))) ∧
    (∀ alert : BitVec 2, alert ≠ 3#2 → s.started = false →
      exec (.brtHeartbeat alert) s = .refused .notStarted) ∧
    (∀ alert : BitVec 2, s.held.a0 = false → strictExec (.brtHeartbeat alert) s = .refused .noValue) ∧
    (∃ r, exec (.brtHeartbeat 3#2) s = .refused r)

/-- R134 laws 1, 3 and 4: BRT.HEARTBEAT is periodic where the counter does not wrap, its results lie between
the least and the greatest level, and the alert level changes the period only. -/
def Obligations.HeartbeatLaws : Prop :=
  ∀ s : State, s.cfg.hb.Valid →
    (∀ (alert : BitVec 2) (period : Nat),
      (alert, period) ∈ ([(0#2, 1714), (1#2, 857), (2#2, 600)] : List (BitVec 2 × Nat)) →
      (s.a0.toNat + period < 4294967296 →
        resOf (exec (.brtHeartbeat alert) { s with a0 := s.a0 + BitVec.ofNat 32 period }) =
          resOf (exec (.brtHeartbeat alert) s)) ∧
      (∀ lo hi : Nat, s.started = true → (∀ i : Fin 8, lo ≤ s.cfg.hb.levels[i]) →
        (∀ i : Fin 8, s.cfg.hb.levels[i] ≤ hi) →
        ∃ t, exec (.brtHeartbeat alert) s = .next t ∧
          s.maxBrightness.toNat * lo / s.cfg.hb.den ≤ t.res.toNat ∧
          t.res.toNat ≤ s.maxBrightness.toNat * hi / s.cfg.hb.den)) ∧
    (∀ (a b : BitVec 2) (ta tb : Nat) (x y : Word),
      (a, ta) ∈ ([(0#2, 1714), (1#2, 857), (2#2, 600)] : List (BitVec 2 × Nat)) →
      (b, tb) ∈ ([(0#2, 1714), (1#2, 857), (2#2, 600)] : List (BitVec 2 × Nat)) →
      x.toNat % ta * tb = y.toNat % tb * ta →
      resOf (exec (.brtHeartbeat a) { s with a0 := x }) =
        resOf (exec (.brtHeartbeat b) { s with a0 := y }))

/-- R121: every BRT command on a started block returns a brightness from 0 to MAX_BRIGHTNESS in BRT and
RES[7:0], with RES[31:8] zero, whatever the configuration. -/
def Obligations.BrightnessNeverExceedsTheMaximum : Prop :=
  ∀ (s : State) (i : Instr), s.started = true → i.wellFormed = true →
    (i = .brtClassic ∨ i = .brtFlow ∨ ∃ a, i = .brtHeartbeat a) →
    ∃ t, exec i s = .next t ∧ t.brt.toNat ≤ s.maxBrightness.toNat ∧
      t.res.extractLsb' 0 8 = t.brt ∧ t.res.extractLsb' 8 24 = 0#24

/-- R123: a BRT command reads A0, A1, its fields, MAX_BRIGHTNESS and the configuration, and no state an
earlier command left: two started blocks that agree on these return the same brightness. -/
def Obligations.BrightnessHasNoMemory : Prop :=
  ∀ (s s' : State) (i : Instr), s.started = true → s'.started = true →
    (i = .brtClassic ∨ i = .brtFlow ∨ ∃ a, i = .brtHeartbeat a) →
    s.a0 = s'.a0 → s.a1 = s'.a1 → s.maxBrightness = s'.maxBrightness → s.cfg = s'.cfg →
    resOf (exec i s) = resOf (exec i s')

/-! ### The colour selector and the rotator (spec/41_color_rotator.md) -/

/-- R150: COLOR on a started block returns the red, green, blue triple of the health status and writes
nothing but RES. -/
def Obligations.ColorPicksTheTriple : Prop :=
  ∀ (s : State) (h : BitVec 2),
    let b := s.a0.toNat % 256
    (s.started = true → ∃ t, exec (.color h) s = .next t ∧ OnlyRes s t ∧
      (h = 0#2 → t.res.toNat = b * 256) ∧ (h = 1#2 → t.res.toNat = b * 65536 + b * 256) ∧
      (h = 2#2 → t.res.toNat = s.maxBrightness.toNat * 65536) ∧ (h = 3#2 → t.res.toNat = b)) ∧
    (s.started = false → exec (.color h) s = .refused .notStarted) ∧
    (s.held.a0 = false → strictExec (.color h) s = .refused .noValue)

/-- R155, R156: ROT, started or not, returns the slot with its kind in bit 4 and its metric in bits 6:5, as
the table has it, and writes nothing but RES. -/
def Obligations.RotFollowsTheTable : Prop :=
  ∀ s : State,
    let slot := s.a0.toNat % 16
    (∃ t, exec .rot s = .next t ∧ OnlyRes s t ∧
      t.res.toNat = slot + slot / 2 % 2 * 16 + slot / 4 * 32 ∧
      some t.res = ([0x00#32, 0x01#32, 0x12#32, 0x13#32, 0x24#32, 0x25#32, 0x36#32, 0x37#32,
        0x48#32, 0x49#32, 0x5A#32, 0x5B#32, 0x6C#32, 0x6D#32, 0x7E#32, 0x7F#32] :
          List Word)[slot]?) ∧
    (s.held.a0 = false → strictExec .rot s = .refused .noValue)

/-- R159: ROT is idempotent, periodic with period 16 with no exception at the wrap, and every result is one
of the sixteen values. -/
def Obligations.RotLaws : Prop :=
  ∀ s : State,
    (∀ t u, exec .rot s = .next t → exec .rot t = .next u → u = t ∧ OnlyRes s t) ∧
    resOf (exec .rot { s with a0 := s.a0 + 16#32 }) = resOf (exec .rot s) ∧
    (∃ w, resOf (exec .rot s) = some w ∧
      w ∈ ([0x00#32, 0x01#32, 0x12#32, 0x13#32, 0x24#32, 0x25#32, 0x36#32, 0x37#32,
        0x48#32, 0x49#32, 0x5A#32, 0x5B#32, 0x6C#32, 0x6D#32, 0x7E#32, 0x7F#32] : List Word))

/-! ### The segment encoder (spec/42_segment_encoder.md) -/

/-- R166, R167, R168: ENC, started or not, returns the table entry of the character, lower case folded onto
upper case, and the blank bitmap for every unmapped code; it writes nothing but RES. -/
def Obligations.EncLooksUpTheFoldedCharacter : Prop :=
  ∀ (s : State) (c : Byte),
    let tab := s.cfg.seg
    ∃ t, exec (.enc c) s = .next t ∧ OnlyRes s t ∧
      (∀ d : Fin 10, c.toNat = 0x30 + d.val → t.res = tab.digits[d].setWidth 32) ∧
      (∀ k : Fin 26, c.toNat = 0x41 + k.val ∨ c.toNat = 0x61 + k.val →
        t.res = tab.letters[k].setWidth 32) ∧
      (c = 0x2D#8 → t.res = tab.hyphen.setWidth 32) ∧
      (c = 0x5F#8 → t.res = tab.underscore.setWidth 32) ∧
      (c = 0x2A#8 → t.res = tab.asterisk.setWidth 32) ∧
      (c = 0x20#8 → t.res = tab.space.setWidth 32) ∧
      (c.toNat ∉ [0x20, 0x2A, 0x2D, 0x5F] → ¬ (0x30 ≤ c.toNat ∧ c.toNat ≤ 0x39) →
        ¬ (0x41 ≤ c.toNat ∧ c.toNat ≤ 0x5A) → ¬ (0x61 ≤ c.toNat ∧ c.toNat ≤ 0x7A) → t.res = 0#32)

/-- R172: for every SEG_TABLE the spec allows, case does not matter, bit 7 is never set, the space is blank,
and every code outside the 66 mapped ones is blank. R180: for any table, the byte the formatter shows for a
character is what ENC returns for it. -/
def Obligations.EncoderLaws : Prop :=
  ∀ (s : State) (c : Byte),
    (resOf (exec (.enc c) s) = some ((glyphByte s.cfg.seg c).setWidth 32)) ∧
    (s.cfg.seg.Valid →
      (0x61 ≤ c.toNat → c.toNat ≤ 0x7A →
        resOf (exec (.enc c) s) = resOf (exec (.enc (c - 0x20#8)) s)) ∧
      (∃ w, resOf (exec (.enc c) s) = some w ∧ w.getLsbD 7 = false) ∧
      resOf (exec (.enc 0x20#8) s) = some 0#32 ∧
      (c.toNat ∉ [0x20, 0x2A, 0x2D, 0x5F] → ¬ (0x30 ≤ c.toNat ∧ c.toNat ≤ 0x39) →
        ¬ (0x41 ≤ c.toNat ∧ c.toNat ≤ 0x5A) → ¬ (0x61 ≤ c.toNat ∧ c.toNat ≤ 0x7A) →
        resOf (exec (.enc c) s) = some 0#32))

/-! ### The display formatter (spec/43_formatter.md) -/

/-- R185: FMT.TEXT shows the glyphs of the four character codes of A0, position 0 from bits 7:0.
Without a started block, a display and a closed bus, and for the strict machine without its operands, it is
refused. -/
def Obligations.FmtTextShowsFourGlyphs : Prop :=
  ∀ s : State,
    let g := fun c : Nat => glyphByte s.cfg.seg (BitVec.ofNat 8 c)
    (DisplayReady s →
      ∃ t, exec .fmtText s = .next t ∧
        FrameShown s t ⟨g (s.a0.toNat % 256), g (s.a0.toNat / 256 % 256), g (s.a0.toNat / 65536 % 256),
          g (s.a0.toNat / 16777216)⟩) ∧
    (s.started = false ∨ s.present = false ∨ s.busOpen = true → ∃ r, exec .fmtText s = .refused r) ∧
    (s.held.a0 = false → strictExec .fmtText s = .refused .noValue)

/-- R188, R189: FMT.INT shows the clamped value in four digits; without leading zeros the blank positions are
those before the first non-zero digit and never position 3.
Without a started block, a display and a closed bus, and for the strict machine without its operands, it is
refused. -/
def Obligations.FmtIntSuppressesLeadingZeros : Prop :=
  ∀ (s : State) (leadingZero : Bool),
    let w := (max 0 (min 9999 s.a0.toInt)).toNat
    let d := fun n : Nat => glyphByte s.cfg.seg (BitVec.ofNat 8 (0x30 + n))
    (DisplayReady s →
      ∃ t, exec (.fmtInt leadingZero) s = .next t ∧
        FrameShown s t
          ⟨if leadingZero = true ∨ 1000 ≤ w then d (w / 1000) else 0#8,
            if leadingZero = true ∨ 100 ≤ w then d (w / 100 % 10) else 0#8,
            if leadingZero = true ∨ 10 ≤ w then d (w / 10 % 10) else 0#8, d (w % 10)⟩) ∧
    (s.started = false ∨ s.present = false ∨ s.busOpen = true → ∃ r, exec (.fmtInt leadingZero) s = .refused r) ∧
    (s.held.a0 = false → strictExec (.fmtInt leadingZero) s = .refused .noValue)

/-- R192: FMT.SMALL shows 0 to 99 as two right-aligned digits and anything larger as the sentinel, then the
two suffix characters.
Without a started block, a display and a closed bus, and for the strict machine without its operands, it is
refused. -/
def Obligations.FmtSmallShowsTwoDigitsOrTheSentinel : Prop :=
  ∀ s : State,
    let v := s.a0.toNat
    let g := fun c : Nat => glyphByte s.cfg.seg (BitVec.ofNat 8 c)
    let s0 := g (s.a1.toNat % 256)
    let s1 := g (s.a1.toNat / 256 % 256)
    (DisplayReady s →
      ∃ t f, exec .fmtSmall s = .next t ∧ FrameShown s t f ∧
        (v ≤ 9 → f = ⟨g 0x20, g (0x30 + v), s0, s1⟩) ∧
        (10 ≤ v → v ≤ 99 → f = ⟨g (0x30 + v / 10), g (0x30 + v % 10), s0, s1⟩) ∧
        (100 ≤ v → f = ⟨g 0x2A, g 0x2A, s0, s1⟩)) ∧
    (s.started = false ∨ s.present = false ∨ s.busOpen = true → ∃ r, exec .fmtSmall s = .refused r) ∧
    (s.held.a0 = false ∨ s.held.a1 = false → strictExec .fmtSmall s = .refused .noValue)

/-- R195: FMT.FIXS shows the magnitude with one decimal digit, its dots and the first suffix character up to
999, and the sentinel with both suffix characters and no dots above; the sign is dropped.
Without a started block, a display and a closed bus, and for the strict machine without its operands, it is
refused. -/
def Obligations.FmtFixsShowsMagnitudeOrTheSentinel : Prop :=
  ∀ (s : State) (dots : BitVec 4),
    let m := s.a0.toInt.natAbs * 10 / 65536
    let g := fun c : Nat => glyphByte s.cfg.seg (BitVec.ofNat 8 c)
    let dot := fun (i : Nat) (b : Byte) => if dots.getLsbD i then b ||| 0x80#8 else b
    let s0 := g (s.a1.toNat % 256)
    let s1 := g (s.a1.toNat / 256 % 256)
    (DisplayReady s →
      ∃ t f, exec (.fmtFixs dots) s = .next t ∧ FrameShown s t f ∧
        (m ≤ 999 → f = ⟨dot 0 (g (0x30 + m / 100)), dot 1 (g (0x30 + m / 10 % 10)),
          dot 2 (g (0x30 + m % 10)), dot 3 s0⟩) ∧
        (1000 ≤ m → f = ⟨g 0x2A, g 0x2A, s0, s1⟩)) ∧
    (s.started = false ∨ s.present = false ∨ s.busOpen = true → ∃ r, exec (.fmtFixs dots) s = .refused r) ∧
    (s.held.a0 = false ∨ s.held.a1 = false → strictExec (.fmtFixs dots) s = .refused .noValue)

/-- R199: FMT.FIX2 shows the value scaled by 100, rounded down and clamped, in four digits with its dots.
Without a started block, a display and a closed bus, and for the strict machine without its operands, it is
refused. -/
def Obligations.FmtFix2ShowsTwoDecimals : Prop :=
  ∀ (s : State) (dots : BitVec 4),
    let w := (max 0 (min 9999 (s.a0.toInt * 100 / 65536))).toNat
    let d := fun n : Nat => glyphByte s.cfg.seg (BitVec.ofNat 8 (0x30 + n))
    let dot := fun (i : Nat) (b : Byte) => if dots.getLsbD i then b ||| 0x80#8 else b
    (DisplayReady s →
      ∃ t, exec (.fmtFix2 dots) s = .next t ∧
        FrameShown s t ⟨dot 0 (d (w / 1000)), dot 1 (d (w / 100 % 10)), dot 2 (d (w / 10 % 10)),
          dot 3 (d (w % 10))⟩) ∧
    (s.started = false ∨ s.present = false ∨ s.busOpen = true → ∃ r, exec (.fmtFix2 dots) s = .refused r) ∧
    (s.held.a0 = false → strictExec (.fmtFix2 dots) s = .refused .noValue)

/-- R202: FMT.TIME shows both fields, each clamped to 0 to 99, in two digits; the colon is the decimal point
of position 1.
Without a started block, a display and a closed bus, and for the strict machine without its operands, it is
refused. -/
def Obligations.FmtTimeShowsTwoFields : Prop :=
  ∀ (s : State) (colon : Bool),
    let h := (max 0 (min 99 s.a0.toInt)).toNat
    let m := (max 0 (min 99 s.a1.toInt)).toNat
    let d := fun n : Nat => glyphByte s.cfg.seg (BitVec.ofNat 8 (0x30 + n))
    (DisplayReady s →
      ∃ t, exec (.fmtTime colon) s = .next t ∧
        FrameShown s t ⟨d (h / 10), if colon then d (h % 10) ||| 0x80#8 else d (h % 10), d (m / 10),
          d (m % 10)⟩) ∧
    (s.started = false ∨ s.present = false ∨ s.busOpen = true → ∃ r, exec (.fmtTime colon) s = .refused r) ∧
    (s.held.a0 = false ∨ s.held.a1 = false → strictExec (.fmtTime colon) s = .refused .noValue)

/-- R183: FMT.TEXT, FMT.INT and FMT.SMALL never set bit 7 of a frame byte, for any SEG_TABLE. -/
def Obligations.PlainFormatsShowNoDecimalPoint : Prop :=
  ∀ (s t : State) (i : Instr),
    (i = .fmtText ∨ (∃ z, i = .fmtInt z) ∨ i = .fmtSmall) → exec i s = .next t →
    t.frame.getLsbD 7 = false ∧ t.frame.getLsbD 15 = false ∧ t.frame.getLsbD 23 = false ∧
      t.frame.getLsbD 31 = false

/-- R304: a decimal value presented as the least word not below it keeps its last digit through the
truncation of FMT.FIXS and FMT.FIX2; a word rounded down can lose it. -/
def Obligations.DecimalsRoundedUpKeepTheirLastDigit : Prop :=
  (∀ k : Nat, k < 327680 → fixsMagnitude (qWord k 10) = k) ∧
  (∀ k : Nat, k ≤ 9999 → fix2Value (qWord k 100) = k) ∧
  (∀ k : Nat, k < 3276800 → (qWord k 100).toInt * 100 / 65536 = k) ∧
  fixsMagnitude 6553#32 = 0 ∧ fixsMagnitude 6554#32 = 1

/-! ### The protocol driver (spec/44_protocol_driver.md) -/

/-- R212: BUS.START lets DIO fall while the clock is as it is, opens the bus and does nothing else; from a
state that meets the invariant the pins are idle before it, so that DIO falls while CLK = 1, and it spells
START; with a transaction open it is refused. -/
def Obligations.BusStartOpensTheBus : Prop :=
  ∀ s : State,
    (DisplayReady s → exec .busStart s =
      .next { s with
        trace := s.trace ++ [.dio false], pins := { s.pins with dioOut := false }, busOpen := true }) ∧
    (DisplayReady s → Inv s →
      s.pins = .idle ∧ ∃ t, exec .busStart s = .next t ∧ t.pins = ⟨true, .out, false⟩ ∧
        symbols t.trace = symbols s.trace ++ [.start]) ∧
    (s.started = false ∨ s.present = false ∨ s.busOpen = true → ∃ r, exec .busStart s = .refused r)

/-- R214: BUS.STOP lowers the clock and the data line, raises the clock and then the data line, closes the
bus and does nothing else; from a state that meets the invariant it leaves the bus idle and spells STOP; with
no transaction open it is refused. -/
def Obligations.BusStopReturnsToIdle : Prop :=
  ∀ s : State,
    (DisplayOpen s → exec .busStop s =
      .next { s with
        trace := s.trace ++ [.clk false, .dio false, .clk true, .dio true]
        pins := { s.pins with clk := true, dioOut := true }, busOpen := false }) ∧
    (DisplayOpen s → Inv s → ∃ t, exec .busStop s = .next t ∧ t.pins = .idle ∧ t.busOpen = false ∧
      symbols t.trace = symbols s.trace ++ [.stop]) ∧
    (s.started = false ∨ s.present = false ∨ s.busOpen = false → ∃ r, exec .busStop s = .refused r)

/-- R217: BUS.BYTE sends the bits least significant first and samples the acknowledgement, which goes to ACK
and RES; its events spell the byte whatever the sample, and nothing else changes. -/
def Obligations.BusByteSendsLeastSignificantFirst : Prop :=
  ∀ (s : State) (b : Byte),
    (DisplayOpen s →
      ∃ t, exec (.busByte b) s = .next t ∧
        t = { s with
          trace := s.trace ++
            ([0, 1, 2, 3, 4, 5, 6, 7].flatMap fun i : Nat => [.clk false, .dio (b.getLsbD i), .clk true]) ++
            [.clk false, .dioDir .inp, .clk true, .sample t.ack, .clk false, .dioDir .out]
          pins := ⟨false, .out, b.getLsbD 7⟩
          ack := Config.draw s.drawn, drawn := s.drawn + 1
          res := t.res, held := { s.held with ack := true, res := true } } ∧
        t.res.toNat = t.ack.toNat ∧
        ∀ d : Decoder, d.pins.dioDir = .out → d.bits = [] →
          ∃ events, t.trace = s.trace ++ events ∧ (d.run events).out = d.out ++ [.byte b] ∧
            (d.run events).bits = []) ∧
    (s.started = false ∨ s.present = false ∨ s.busOpen = false → ∃ r, exec (.busByte b) s = .refused r)

/-- R218: `SendByte` makes 9 clock pulses, emits 30 events, takes 1 draw and calls `Delay()` 19 times. -/
def Obligations.ByteCounts : Prop :=
  ∀ (s : State) (b : Byte),
    (sendByte b).count (.clk true) = 9 ∧ (sendByte b).count .delay = 19 ∧
    (sendByte b).count .sample = 1 ∧
    (runPins (sendByte b) s).trace.length = s.trace.length + 30 ∧
    (runPins (sendByte b) s).drawn = s.drawn + 1

/-- R227: a frame write sends seven bytes and takes seven samples in both settings of SPLIT_DATA_CMD; 2 start
and 2 stop conditions, 220 events and 141 delays unsplit, 3, 3, 225 and 145 split; 63 clock pulses inside
bytes, the rest of the rises being those of the stop conditions. -/
def Obligations.FrameWriteCounts : Prop :=
  ∀ (s : State) (f : Frame) (bright : BitVec 3),
    let ops := writeFrame s.cfg bright f
    let t := runPins ops s
    let stops := if s.cfg.splitDataCmd then 3 else 2
    ops.count .sample = 7 ∧ t.drawn = s.drawn + 7 ∧
    ops.count (.busOpen true) = stops ∧ ops.count (.busOpen false) = stops ∧
    ops.count (.clk true) = 63 + stops ∧
    ops.count .delay = (if s.cfg.splitDataCmd then 145 else 141) ∧
    t.trace.length = s.trace.length + (if s.cfg.splitDataCmd then 225 else 220) ∧
    ((frameSymbols s.cfg bright f).filterMap
      fun x => match x with | .byte b => some b | .start => none | .stop => none).length = 7

/-- R94, R226, R228: whatever the samples, every command that shows a frame from a bus whose trace is idle,
a SYS.TICK that refreshes included, adds exactly the symbols of a frame write to what the trace spells: the
data-write command, 0xC0, the four bytes of FRAME, and the control byte with BRIGHT in a transaction of its
own. -/
def Obligations.ShownFramesSpellTheirSymbols : Prop :=
  ∀ (s : State) (i : Instr),
    DisplayReady s → (traced s).pins = .idle → ShowsFrame i s →
    ∃ t, exec i s = .next t ∧ t.busOpen = false ∧ t.pins = .idle ∧ (traced t).pins = .idle ∧
      let f := unpack4 t.frame
      let tail : List Symbol :=
        [.byte 0xC0#8, .byte f.b0, .byte f.b1, .byte f.b2, .byte f.b3, .stop,
          .start, .byte (BitVec.ofNat 8 (0x88 + s.bright.toNat)), .stop]
      (s.cfg.splitDataCmd = false →
        symbols t.trace = symbols s.trace ++ [.start, .byte s.cfg.cmdDataWrite] ++ tail) ∧
      (s.cfg.splitDataCmd = true →
        symbols t.trace =
          symbols s.trace ++ [.start, .byte s.cfg.cmdDataWrite, .stop, .start] ++ tail)

/-- R225: DISP.WRITE stores A0 in FRAME and sends its bytes as they are, bit 7 included. -/
def Obligations.DispWriteSendsTheFrameAsGiven : Prop :=
  ∀ s : State,
    (DisplayReady s → ∃ t, exec .dispWrite s = .next t ∧ t.frame = s.a0 ∧
      FrameShown s t ⟨s.a0.extractLsb' 0 8, s.a0.extractLsb' 8 8, s.a0.extractLsb' 16 8,
        s.a0.extractLsb' 24 8⟩) ∧
    (s.started = false ∨ s.present = false ∨ s.busOpen = true → ∃ r, exec .dispWrite s = .refused r) ∧
    (s.held.a0 = false → strictExec .dispWrite s = .refused .noValue)

/-- R230: DISP.BRIGHT stores the level and sends nothing, bus open or not; the next DISP.WRITE or FMT command
ends with the transaction of the control byte `0x88 | level`. -/
def Obligations.DispBrightSetsTheNextControlByte : Prop :=
  ∀ (s : State) (level : BitVec 3),
    (s.started = true → s.present = true →
      ∃ t, exec (.dispBright level) s = .next t ∧
        t = { s with bright := level, held := { s.held with bright := true } } ∧
        (s.busOpen = false → (traced s).pins = .idle → ∀ i, WritesFrame i →
          ∃ u, exec i t = .next u ∧
            ∃ before, symbols u.trace =
              before ++ [.start, .byte (BitVec.ofNat 8 (0x88 + level.toNat)), .stop])) ∧
    (s.started = false ∨ s.present = false → ∃ r, exec (.dispBright level) s = .refused r)

/-- R216, R231: no command reads the acknowledgement: two states that differ only in ACK, in the draws and
in the levels of past samples run every command to states that again differ only so, and in RES for
BUS.BYTE alone; and a command refused in one is refused in the other. -/
def Obligations.AcknowledgementIsNeverRead : Prop :=
  ∀ (s s' : State) (i : Instr), SameButSamples s s' →
    (∀ t, exec i s = .next t → ∃ t', exec i s' = .next t' ∧
      SameButSamples t { t' with res := t.res } ∧ ((∀ b, i ≠ .busByte b) → t'.res = t.res)) ∧
    (∀ r, exec i s = .refused r → exec i s' = .refused r)

/-- R64 (the model's view, log 14): after a frame is shown, by a SYS.TICK that refreshes too, from a state
that meets the invariant, the most recent complete frame transaction of the trace is FRAME and the most
recent control byte is `0x88 | BRIGHT`. -/
def Obligations.DisplayViewShowsTheLastFrame : Prop :=
  ∀ (s : State) (i : Instr), Inv s → DisplayReady s → ShowsFrame i s →
    ∃ t, exec i s = .next t ∧
      display s.cfg t.trace =
        ⟨some (unpack4 t.frame), some (BitVec.ofNat 8 (0x88 + s.bright.toNat))⟩

/-! ### The system commands (spec/45_system.md) -/

/-- R250: SYS.INIT with alloc_ok = 1 starts the block with A0[7:0] as its maximum and, with a display, an
idle bus; with alloc_ok = 0 it clears STARTED and PRESENT; RES is alloc_ok; it spells no symbol; with a
transaction open it is refused, and so is, by the strict machine, alloc_ok = 1 without a value in A0. -/
def Obligations.SysInitStartsOrStopsTheBlock : Prop :=
  ∀ (s : State) (present : Bool),
    (s.busOpen = false →
      ∃ t, exec (.sysInit true present) s = .next t ∧
        t = { s with
          started := true, present := present, maxBrightness := s.a0.extractLsb' 0 8
          bright := s.cfg.dispBrightReset, lastValid := false, res := 1#32
          trace := s.trace ++ (if present then [.clk true, .dio true, .dioDir .out] else [])
          pins := if present then .idle else s.pins
          held := { s.held with
            maxBrightness := true, bright := true, res := true, pins := s.held.pins || present } } ∧
        ((traced s).pins = .idle → symbols t.trace = symbols s.trace)) ∧
    (s.busOpen = false →
      exec (.sysInit false present) s =
        .next { s with
          started := false, present := false, res := 0#32, held := { s.held with res := true } }) ∧
    (∀ allocOk, s.busOpen = true → exec (.sysInit allocOk present) s = .refused .busOpen) ∧
    (s.held.a0 = false → strictExec (.sysInit true present) s = .refused .noValue)

/-- R256: SYS.TICK is refused exactly when the block is not started, a transaction is open, MODE = 3, or
MODE = HEARTBEAT and ALERT = 3. -/
def Obligations.TickIsRefusedExactlyWhenTheRuleSays : Prop :=
  ∀ s : State,
    ((∃ r, exec .sysTick s = .refused r) ↔
      s.started = false ∨ s.busOpen = true ∨ s.mode = 3#2 ∨ (s.mode = 2#2 ∧ s.alert = 3#2)) ∧
    ((∃ t, exec .sysTick s = .next t) ↔
      ¬ (s.started = false ∨ s.busOpen = true ∨ s.mode = 3#2 ∨ (s.mode = 2#2 ∧ s.alert = 3#2)))

/-- R258: the LED path of a tick is the BRT command of the mode on the sampled time and power followed by
COLOR on the health: BRT and the colour registers are theirs, and the colour is set once and then committed
once, after events that are no LED event. -/
def Obligations.TickLedPathIsBrightnessThenColor : Prop :=
  ∀ (s : State) (i : Instr),
    s.started = true → s.busOpen = false →
    ((s.mode = 0#2 ∧ i = .brtClassic) ∨ (s.mode = 1#2 ∧ i = .brtFlow) ∨
      (s.mode = 2#2 ∧ s.alert ≠ 3#2 ∧ i = .brtHeartbeat s.alert)) →
    ∃ (t u v : State) (pinEvents : List Event), exec .sysTick s = .next t ∧
      exec i { s with a0 := s.nowMs, a1 := s.powerW } = .next u ∧
      exec (.color s.health) { u with a0 := u.res } = .next v ∧
      t.brt = u.brt ∧
      v.res = BitVec.ofNat 32 (t.ledR.toNat * 65536 + t.ledG.toNat * 256 + t.ledB.toNat) ∧
      t.trace = s.trace ++ pinEvents ++ [.ledSet t.ledR t.ledG t.ledB, .ledShow] ∧
      ∀ e ∈ pinEvents, e ≠ .ledShow ∧ ∀ r g b, e ≠ .ledSet r g b

/-- R257: the display path of a tick: with a display, and LAST_VALID = 0 or a new whole second, the frame of
the planned command is shown and the second recorded; otherwise nothing of the display changes. What the
LED path writes aside, nothing else changes. -/
def Obligations.TickRefreshesOncePerSecond : Prop :=
  ∀ (s t : State), exec .sysTick s = .next t →
    let sec := s.nowMs.toNat / 1000
    let slot := sec % 16
    let kind := if slot / 2 % 2 = 0 then SlotKind.label else SlotKind.value
    let led := fun u : State =>
      { u with
        brt := t.brt, ledR := t.ledR, ledG := t.ledG, ledB := t.ledB
        trace := u.trace ++ [.ledSet t.ledR t.ledG t.ledB, .ledShow]
        held := { u.held with brt := true, led := true } }
    (s.present = true → (s.lastValid = false ∨ s.lastS.toNat ≠ sec) →
      ∀ metric, (slot / 4, metric) ∈
          ([(0, .charge), (1, .voltage), (2, .current), (3, .capacity)] : List (Nat × Metric)) →
        ∃ u, FrameShown s u (formatFrame s.cfg.seg
            (rotPlan s.cfg.rotPlan kind metric ⟨s.charge, s.voltDv, s.currDa, s.capWh⟩)) ∧
          t = led { u with lastS := BitVec.ofNat 32 sec, lastValid := true }) ∧
    (s.present = false ∨ (s.lastValid = true ∧ s.lastS.toNat = sec) → t = led s)

/-- R158: under the reference plan, label windows show fixed text and value windows the telemetry word of
the metric as FMT.INT without leading zeros does. -/
def Obligations.ReferencePlanShowsLabelsAndValues : Prop :=
  ∀ tel : Telemetry,
    (rotPlan .reference .label .charge tel = .text (text4 "SOC") ∧
      rotPlan .reference .label .voltage tel = .text (text4 "VOLT") ∧
      rotPlan .reference .label .current tel = .text (text4 "CURR") ∧
      rotPlan .reference .label .capacity tel = .text (text4 "CAP")) ∧
    (rotPlan .reference .value .charge tel = .int false tel.charge ∧
      rotPlan .reference .value .voltage tel = .int false tel.voltDv ∧
      rotPlan .reference .value .current tel = .int false tel.currDa ∧
      rotPlan .reference .value .capacity tel = .int false tel.capWh)

/-- R259: every tick emits one `LedSet` and then one `LedShow` after the events of no or one frame write;
without a display, and on a second tick of the same second, there is no pin event; the bus is idle after
it, if it was before or if a display is present and the invariant holds; the brightness and the colour depend on the sampled inputs and MAX_BRIGHTNESS alone; ERROR shows full red. -/
def Obligations.TickLaws : Prop :=
  (∀ s t : State, exec .sysTick s = .next t →
    ∃ pinEvents : List Event,
      t.trace = s.trace ++ pinEvents ++ [.ledSet t.ledR t.ledG t.ledB, .ledShow] ∧
      (∀ e ∈ pinEvents, e ≠ .ledShow ∧ ∀ r g b, e ≠ .ledSet r g b) ∧
      (pinEvents = [] ∨ pinEvents.length = if s.cfg.splitDataCmd then 225 else 220) ∧
      (s.present = false → pinEvents = []) ∧
      t.busOpen = false ∧
      (s.pins = .idle → t.pins = .idle) ∧
      (Inv s → s.present = true → t.pins = .idle) ∧
      (s.health = 2#2 → t.ledR = s.maxBrightness ∧ t.ledG = 0#8 ∧ t.ledB = 0#8)) ∧
  (∀ s t s' t' : State, exec .sysTick s = .next t → exec .sysTick s' = .next t' →
    s.present = true → s'.lastS = t.lastS → s'.lastValid = t.lastValid →
    s'.nowMs.toNat / 1000 = s.nowMs.toNat / 1000 →
    t'.trace = s'.trace ++ [.ledSet t'.ledR t'.ledG t'.ledB, .ledShow]) ∧
  (∀ s t s' t' : State, exec .sysTick s = .next t → exec .sysTick s' = .next t' →
    s'.nowMs = s.nowMs → s'.mode = s.mode → s'.alert = s.alert → s'.health = s.health →
    s'.powerW = s.powerW → s'.maxBrightness = s.maxBrightness → s'.cfg = s.cfg →
    t'.brt = t.brt ∧ t'.ledR = t.ledR ∧ t'.ledG = t.ledG ∧ t'.ledB = t.ledB)

/-! ### The whole machine -/

/-- Who writes what (R22, R28 to R40): no command writes A0, A1, an input register, the configuration or the
host's own; STARTED, PRESENT and MAX_BRIGHTNESS change by SYS.INIT alone, LAST_S and LAST_VALID by SYS.INIT
and SYS.TICK, BRIGHT by SYS.INIT and DISP.BRIGHT, the colour by SYS.TICK, BRT by the BRT commands and
SYS.TICK, FRAME by the FMT commands, DISP.WRITE and SYS.TICK, RES by the commands that return a value; the pins,
BUS_OPEN, ACK and TRACE by the display commands, SYS.TICK and a successful SYS.INIT; and TRACE only
grows. -/
def Obligations.EachRegisterHasItsWriters : Prop :=
  ∀ (i : Instr) (s t : State), exec i s = .next t →
    (t.a0 = s.a0 ∧ t.a1 = s.a1 ∧ t.cmd = s.cmd ∧ t.nowMs = s.nowMs ∧ t.mode = s.mode ∧
      t.alert = s.alert ∧ t.health = s.health ∧ t.powerW = s.powerW ∧ t.charge = s.charge ∧
      t.voltDv = s.voltDv ∧ t.currDa = s.currDa ∧ t.capWh = s.capWh ∧ t.cfg = s.cfg ∧
      t.pending = s.pending ∧ t.readData = s.readData) ∧
    ((∀ a p, i ≠ .sysInit a p) →
      t.started = s.started ∧ t.present = s.present ∧ t.maxBrightness = s.maxBrightness ∧
      (i ≠ .sysTick → t.lastS = s.lastS ∧ t.lastValid = s.lastValid) ∧
      ((∀ l, i ≠ .dispBright l) → t.bright = s.bright)) ∧
    (i ≠ .sysTick → t.ledR = s.ledR ∧ t.ledG = s.ledG ∧ t.ledB = s.ledB ∧
      (i ≠ .brtClassic → i ≠ .brtFlow → (∀ a, i ≠ .brtHeartbeat a) → t.brt = s.brt)) ∧
    (i ∈ [.sysTick, .fmtText, .fmtSmall, .dispWrite] ∨ (∃ z, i = .fmtInt z) ∨ (∃ d, i = .fmtFixs d) ∨
      (∃ d, i = .fmtFix2 d) ∨ (∃ c, i = .fmtTime c) ∨ t.frame = s.frame) ∧
    (i ∈ [.brtClassic, .brtFlow, .rot] ∨ (∃ a p, i = .sysInit a p) ∨ (∃ a, i = .brtHeartbeat a) ∨
      (∃ h, i = .color h) ∨ (∃ c, i = .enc c) ∨ (∃ b, i = .busByte b) ∨ t.res = s.res) ∧
    (isDisplayCommand i = false → i ≠ .sysTick → (∀ p, i ≠ .sysInit true p) →
      t.pins = s.pins ∧ t.busOpen = s.busOpen ∧ t.ack = s.ack ∧ t.drawn = s.drawn ∧
      t.trace = s.trace) ∧
    ∃ events, t.trace = s.trace ++ events

/-- The invariant holds after power-on with every configuration the spec allows. The pins' reset levels are
the model's choice (log 3); no clause rests on them. -/
def Obligations.InvariantHoldsAtPowerOn : Prop :=
  (∀ c : Config, c.Valid → Inv (State.powerOnWith c)) ∧ Inv State.reset

/-- R39, R210, R211, R232: every step keeps the invariant: the pins follow the trace, the bus is idle between
transactions, the trace spells transactions, the last open iff BUS_OPEN, and data is driven and sampled in
the direction it must. -/
def Obligations.EveryStepKeepsTheInvariant : Prop :=
  ∀ s t : State, Inv s → step s = .next t → Inv t
end

