-- ==== Sys2Proof/Laws/Fields.lean ====
section
/-! SUPPORT. Packing: words made of fields, and the two bytes of a command word. -/

namespace Sys2Proof

/-! ### OP and MOD -/

theorem opField_append_modField (w : BitVec 16) : opField w ++ modField w = w := by
  apply BitVec.eq_of_getLsbD_eq
  intro i hi
  simp only [opField, modField, BitVec.getLsbD_append, BitVec.getLsbD_extractLsb']
  grind

theorem opField_toNat (w : BitVec 16) : (opField w).toNat = w.toNat / 256 := by
  have := w.isLt
  simp only [opField, BitVec.extractLsb'_toNat, Nat.shiftRight_eq_div_pow]
  omega

theorem modField_toNat (w : BitVec 16) : (modField w).toNat = w.toNat % 256 := by
  simp [modField]

@[simp] theorem opField_append (o m : BitVec 8) : opField (o ++ m) = o := by
  apply BitVec.eq_of_getLsbD_eq
  intro i hi
  simp only [opField, BitVec.getLsbD_append, BitVec.getLsbD_extractLsb']
  grind

@[simp] theorem modField_append (o m : BitVec 8) : modField (o ++ m) = m := by
  apply BitVec.eq_of_getLsbD_eq
  intro i hi
  simp only [modField, BitVec.getLsbD_append, BitVec.getLsbD_extractLsb']
  grind

@[simp] theorem commandWord_setWidth (w : BitVec 16) : commandWord (w.setWidth 32) = w := by
  apply BitVec.eq_of_getLsbD_eq
  intro i hi
  simp [commandWord, hi]

/-- A command whose must-be-zero bits are checked decodes only where they are zero. -/
theorem whenZero_ok {n : Nat} {z : BitVec n} {i j : Instr} :
    whenZero z i = .ok j ↔ z = 0#n ∧ i = j := by
  unfold whenZero
  split <;> simp_all

namespace Machine

/-! ### Packed words -/

/-- Four byte fields read as one number. -/
theorem toNat_fields (a b c d : Byte) :
    (fieldAt a 24 ||| fieldAt b 16 ||| fieldAt c 8 ||| fieldAt d 0).toNat =
      a.toNat * 16777216 + b.toNat * 65536 + c.toNat * 256 + d.toNat := by
  have ha := a.isLt
  have hb := b.isLt
  have hc := c.isLt
  have hd := d.isLt
  have key : ∀ x y n, y < 2 ^ n → x * 2 ^ n ||| y = x * 2 ^ n + y := fun x y n h => by
    rw [← Nat.shiftLeft_eq, Nat.shiftLeft_add_eq_or_of_lt h]
  have k8 := key c.toNat d.toNat 8 hd
  have k16 := key b.toNat (c.toNat * 256 + d.toNat) 16 (by omega)
  have k24 := key a.toNat (b.toNat * 65536 + (c.toNat * 256 + d.toNat)) 24 (by omega)
  simp only [Nat.reducePow] at *
  simp only [fieldAt, BitVec.toNat_or, BitVec.toNat_shiftLeft, BitVec.toNat_setWidth,
    Nat.shiftLeft_eq, Nat.reducePow, pow_zero, mul_one]
  rw [Nat.mod_eq_of_lt (by omega : a.toNat < _), Nat.mod_eq_of_lt (by omega : b.toNat < _),
    Nat.mod_eq_of_lt (by omega : c.toNat < _), Nat.mod_eq_of_lt (by omega : d.toNat < _),
    Nat.mod_eq_of_lt (by omega), Nat.mod_eq_of_lt (by omega), Nat.mod_eq_of_lt (by omega),
    Nat.mod_eq_of_lt (by omega), Nat.or_assoc, Nat.or_assoc, k8, k16, k24]
  omega

@[simp] theorem fieldAt_zero (n : Nat) : fieldAt (0#8) n = 0#32 := by
  simp [fieldAt]

@[simp] theorem unpack4_pack4 (f : Frame) : unpack4 (pack4 f) = f := by
  obtain ⟨a, b, c, d⟩ := f
  simp only [unpack4, pack4, Frame.mk.injEq]
  refine ⟨?_, ?_, ?_, ?_⟩ <;> apply BitVec.eq_of_getLsbD_eq <;> intro i hi <;>
    simp [fieldAt, hi] <;> grind

@[simp] theorem pack4_unpack4 (w : Word) : pack4 (unpack4 w) = w := by
  apply BitVec.eq_of_getLsbD_eq
  intro i hi
  simp [unpack4, pack4, fieldAt, hi]
  grind

/-! ### The register map -/

/-- Offsets 0x44 and above are reserved (R61). -/
theorem regAt_reserved : ∀ off : Byte, 0x44 ≤ off.toNat → regAt off = none := by decide

theorem accessReg_word {off : Byte} {r : Reg} (h4 : off.toNat % 4 = 0) (h : regAt off = some r) :
    accessReg .word off = .ok r := by
  simp [accessReg, h4, h]

end Machine

end Sys2Proof
end

