-- ==== Sys2Proof/Laws/Pins.lean ====
section
/-! SUPPORT. The pin procedures once and for all: what each does to the state (a closed form that later
proofs cite instead of running the procedure), and what bus symbols its events spell. -/

namespace Sys2Proof.Machine

/-! ### Running procedures -/

@[simp] theorem runPins_nil (s : State) : runPins [] s = s := rfl

@[simp] theorem runPins_cons (op : PinOp) (ops : List PinOp) (s : State) :
    runPins (op :: ops) s = runPins ops (op.apply s) := rfl

@[simp] theorem runPins_append (xs ys : List PinOp) (s : State) :
    runPins (xs ++ ys) s = runPins ys (runPins xs s) := by
  simp [runPins, List.foldl_append]

/-- A pin procedure touches nothing but TRACE, the pins, BUS_OPEN, ACK and the draw counter. -/
theorem runPins_keeps (ops : List PinOp) (s : State) :
    runPins ops s =
      { s with
        trace := (runPins ops s).trace
        pins := (runPins ops s).pins
        busOpen := (runPins ops s).busOpen
        ack := (runPins ops s).ack
        drawn := (runPins ops s).drawn
        held := { s.held with ack := (runPins ops s).held.ack } } := by
  induction ops generalizing s with
  | nil => rfl
  | cons op ops ih =>
    rw [runPins_cons, ih]
    cases op <;> rfl

/-! ### Closed forms -/

/-- The events of `StopCond()`. -/
def stopEvents : List Event := [.clk false, .dio false, .clk true, .dio true]

/-- The events of `BitCell(v)`. -/
def bitEvents (v : Bool) : List Event := [.clk false, .dio v, .clk true]

/-- The events of `AckCell()` with the sample `a`. -/
def ackEvents (a : Bool) : List Event :=
  [.clk false, .dioDir .inp, .clk true, .sample a, .clk false, .dioDir .out]

/-- The events of `SendByte(b)` with the sample `a`. -/
def byteEvents (b : Byte) (a : Bool) : List Event := (bitsOfByte b).flatMap bitEvents ++ ackEvents a

/-- The events of `WriteFrame(f)` whose first sample is the `n`-th. -/
def frameEvents (c : Config) (bright : BitVec 3) (f : Frame) (n : Nat) : List Event :=
  [.dio false] ++ byteEvents c.cmdDataWrite (Config.draw n) ++
    (if c.splitDataCmd then stopEvents ++ [.dio false] else []) ++
    byteEvents cmdAddr0 (Config.draw (n + 1)) ++
    byteEvents f.b0 (Config.draw (n + 2)) ++ byteEvents f.b1 (Config.draw (n + 3)) ++
    byteEvents f.b2 (Config.draw (n + 4)) ++ byteEvents f.b3 (Config.draw (n + 5)) ++ stopEvents ++
    [.dio false] ++ byteEvents (controlByte bright) (Config.draw (n + 6)) ++ stopEvents

theorem runPins_startCond (s : State) :
    runPins startCond s =
      { s with
        trace := s.trace ++ [.dio false], pins := { s.pins with dioOut := false }, busOpen := true } :=
  rfl

theorem runPins_stopCond (s : State) :
    runPins stopCond s =
      { s with
        trace := s.trace ++ stopEvents, pins := ⟨true, s.pins.dioDir, true⟩, busOpen := false } := by
  simp [stopCond, stopEvents, PinOp.apply]

theorem runPins_bitCell (v : Bool) (s : State) :
    runPins (bitCell v) s =
      { s with trace := s.trace ++ bitEvents v, pins := ⟨true, s.pins.dioDir, v⟩ } := by
  simp [bitCell, bitEvents, PinOp.apply]

theorem runPins_ackCell (s : State) :
    runPins ackCell s =
      { s with
        trace := s.trace ++ ackEvents (Config.draw s.drawn)
        pins := ⟨false, .out, s.pins.dioOut⟩
        ack := Config.draw s.drawn
        drawn := s.drawn + 1
        held := { s.held with ack := true } } := by
  simp [ackCell, ackEvents, PinOp.apply]

/-- One byte, from any state (R217). -/
theorem runPins_sendByte (b : Byte) (s : State) :
    runPins (sendByte b) s =
      { s with
        trace := s.trace ++ byteEvents b (Config.draw s.drawn)
        pins := ⟨false, .out, b.getLsbD 7⟩
        ack := Config.draw s.drawn
        drawn := s.drawn + 1
        held := { s.held with ack := true } } := by
  simp [sendByte, bitsOfByte, byteEvents, runPins_bitCell, runPins_ackCell]

/-- One frame write, from any state (R226). -/
theorem runPins_writeFrame (c : Config) (bright : BitVec 3) (f : Frame) (s : State) :
    runPins (writeFrame c bright f) s =
      { s with
        trace := s.trace ++ frameEvents c bright f s.drawn
        pins := .idle
        busOpen := false
        ack := Config.draw (s.drawn + 6)
        drawn := s.drawn + 7
        held := { s.held with ack := true } } := by
  cases h : c.splitDataCmd <;>
    simp [writeFrame, frameEvents, h, runPins_startCond, runPins_stopCond, runPins_sendByte, Pins.idle]

/-- What a command that shows a frame leaves (R182). -/
theorem showFrame_eq (f : Frame) (s : State) :
    showFrame f s =
      { s with
        frame := pack4 f
        trace := s.trace ++ frameEvents s.cfg s.bright f s.drawn
        pins := .idle
        busOpen := false
        ack := Config.draw (s.drawn + 6)
        drawn := s.drawn + 7
        held := { s.held with frame := true, ack := true } } := by
  simp [showFrame, runPins_writeFrame, State.setFrame]

/-- What BUS.BYTE leaves (R217). -/
theorem sendByteResult_eq (b : Byte) (s : State) :
    sendByteResult b s =
      { s with
        res := (BitVec.ofBool (Config.draw s.drawn)).setWidth 32
        trace := s.trace ++ byteEvents b (Config.draw s.drawn)
        pins := ⟨false, .out, b.getLsbD 7⟩
        ack := Config.draw s.drawn
        drawn := s.drawn + 1
        held := { s.held with ack := true, res := true } } := by
  simp [sendByteResult, runPins_sendByte, State.setRes]

/-! ### Counts -/

@[simp] theorem byteEvents_length (b : Byte) (a : Bool) : (byteEvents b a).length = 30 := by
  simp [byteEvents, bitsOfByte, bitEvents, ackEvents]

@[simp] theorem frameEvents_length (c : Config) (bright : BitVec 3) (f : Frame) (n : Nat) :
    (frameEvents c bright f n).length = if c.splitDataCmd then 225 else 220 := by
  cases h : c.splitDataCmd <;> simp [frameEvents, stopEvents, h]

/-! ### What the events spell -/

@[simp] theorem Decoder.run_nil (d : Decoder) : d.run [] = d := rfl

@[simp] theorem Decoder.run_cons (d : Decoder) (e : Event) (es : List Event) :
    d.run (e :: es) = (d.step e).run es := rfl

@[simp] theorem Decoder.run_append (d : Decoder) (xs ys : List Event) :
    d.run (xs ++ ys) = (d.run xs).run ys := by
  simp [Decoder.run, List.foldl_append]

/-- The eight bits sent for a byte are that byte, least significant first (R65). -/
@[simp] theorem byteOfBits_bitsOfByte : ∀ b : Byte, byteOfBits (bitsOfByte b) = b := by decide

/-- A bit cell appends its bit while the block drives the data line. -/
theorem Decoder.run_bitEvents (v : Bool) (d : Decoder) (hd : d.pins.dioDir = .out) :
    d.run (bitEvents v) = { d with pins := ⟨true, .out, v⟩, bits := d.bits ++ [v] } := by
  simp [bitEvents, Decoder.step, Decoder.clockRise, hd]

/-- An ack cell after eight bits closes the byte. -/
theorem Decoder.run_ackEvents (a : Bool) (d : Decoder) (hb : d.bits.length = 8) :
    d.run (ackEvents a) =
      ⟨⟨false, .out, d.pins.dioOut⟩, [], d.out ++ [.byte (byteOfBits d.bits)]⟩ := by
  simp [ackEvents, Decoder.step, Decoder.clockRise, hb]

/-- The events of a byte spell that byte, whatever the sample (R217, R228). -/
theorem Decoder.run_byteEvents (b : Byte) (a : Bool) (d : Decoder) (hd : d.pins.dioDir = .out)
    (hb : d.bits = []) :
    d.run (byteEvents b a) = ⟨⟨false, .out, b.getLsbD 7⟩, [], d.out ++ [.byte b]⟩ := by
  have key := byteOfBits_bitsOfByte b
  simp only [bitsOfByte] at key
  simp only [byteEvents, bitsOfByte, List.flatMap_cons, List.flatMap_nil, List.append_nil,
    Decoder.run_append]
  simpa [Decoder.run_bitEvents, Decoder.run_ackEvents, hd, hb] using key

/-- From idle pins a start condition spells START (R211, R212). -/
theorem Decoder.run_start (d : Decoder) (hp : d.pins = .idle) :
    d.run [.dio false] = ⟨⟨true, .out, false⟩, [], d.out ++ [.start]⟩ := by
  simp [Decoder.step, hp, Pins.idle]

/-- A stop condition spells STOP; the stray bit of its clock rise is cleared (R211, R214, R228). -/
theorem Decoder.run_stop (d : Decoder) (hd : d.pins.dioDir = .out)
    (hc : d.pins.clk = false ∨ d.pins.dioOut = false) :
    d.run stopEvents = ⟨.idle, [], d.out ++ [.stop]⟩ := by
  obtain ⟨⟨clk, dir, dio⟩, bits, out⟩ := d
  simp only at hd hc
  subst hd
  rcases hc with rfl | rfl
  · simp [stopEvents, Decoder.step, Decoder.clockRise, Pins.idle]
  · cases clk <;> simp [stopEvents, Decoder.step, Decoder.clockRise, Pins.idle]

/-- A frame write from idle pins spells the symbols of R94 and leaves the bus idle (R226, R228). -/
theorem Decoder.run_frameEvents (c : Config) (bright : BitVec 3) (f : Frame) (n : Nat) (d : Decoder)
    (hp : d.pins = .idle) :
    d.run (frameEvents c bright f n) = ⟨.idle, [], d.out ++ frameSymbols c bright f⟩ := by
  cases h : c.splitDataCmd <;>
    simp only [frameEvents, frameSymbols, h, Decoder.run_append, Decoder.run_start _ hp] <;>
    simp [Decoder.run_byteEvents, Decoder.run_stop, Decoder.run_start, -Decoder.run_cons]

end Sys2Proof.Machine
end

