-- ==== Sys2Proof/Laws/Exec.lean ====
section
/-! SUPPORT. When the shared conditions let a command run, and what each meaning answers then. -/

namespace Sys2Proof.Machine

open Sys2Proof.Safety

/-! ### The shared conditions -/

@[simp] theorem requireStarted_of_started {s : State} (h : s.started = true) (r : Result) :
    requireStarted s r = r := by simp [requireStarted, h]

@[simp] theorem requireStarted_of_not {s : State} (h : s.started = false) (r : Result) :
    requireStarted s r = .refused .notStarted := by simp [requireStarted, h]

@[simp] theorem requireDisplay_of_present {s : State} (h : s.present = true) (r : Result) :
    requireDisplay s r = r := by simp [requireDisplay, h]

@[simp] theorem requireBusIdle_of_closed {s : State} (h : s.busOpen = false) (r : Result) :
    requireBusIdle s r = r := by simp [requireBusIdle, h]

@[simp] theorem requireBusOpen_of_open {s : State} (h : s.busOpen = true) (r : Result) :
    requireBusOpen s r = r := by simp [requireBusOpen, h]

theorem whenDisplayIdle_of_ready {s : State} (h : DisplayReady s) (r : Result) :
    whenDisplayIdle s r = r := by
  obtain ⟨h1, h2, h3⟩ := h
  simp [whenDisplayIdle, h1, h2, h3]

theorem whenDisplayOpen_of_open {s : State} (h : DisplayOpen s) (r : Result) :
    whenDisplayOpen s r = r := by
  obtain ⟨h1, h2, h3⟩ := h
  simp [whenDisplayOpen, h1, h2, h3]

/-- A shared condition answers a next state only through the meaning it guards. -/
theorem requireStarted_next {s t : State} {r : Result} (h : requireStarted s r = .next t) :
    s.started = true ∧ r = .next t := by
  unfold requireStarted at h
  split at h <;> simp_all

theorem requireDisplay_next {s t : State} {r : Result} (h : requireDisplay s r = .next t) :
    s.present = true ∧ r = .next t := by
  unfold requireDisplay at h
  split at h <;> simp_all

theorem requireBusIdle_next {s t : State} {r : Result} (h : requireBusIdle s r = .next t) :
    s.busOpen = false ∧ r = .next t := by
  unfold requireBusIdle at h
  split at h <;> simp_all

theorem requireBusOpen_next {s t : State} {r : Result} (h : requireBusOpen s r = .next t) :
    s.busOpen = true ∧ r = .next t := by
  unfold requireBusOpen at h
  split at h <;> simp_all

theorem whenDisplayIdle_next {s t : State} {r : Result} (h : whenDisplayIdle s r = .next t) :
    DisplayReady s ∧ r = .next t := by
  obtain ⟨h1, h⟩ := requireStarted_next h
  obtain ⟨h2, h⟩ := requireDisplay_next h
  obtain ⟨h3, h⟩ := requireBusIdle_next h
  exact ⟨⟨h1, h2, h3⟩, h⟩

theorem whenDisplayOpen_next {s t : State} {r : Result} (h : whenDisplayOpen s r = .next t) :
    DisplayOpen s ∧ r = .next t := by
  obtain ⟨h1, h⟩ := requireStarted_next h
  obtain ⟨h2, h⟩ := requireDisplay_next h
  obtain ⟨h3, h⟩ := requireBusOpen_next h
  exact ⟨⟨h1, h2, h3⟩, h⟩

/-! ### Argument registers that hold no value -/

theorem a0Column_iff (i : Instr) : A0Column i ↔ readsA0 i = true := by
  constructor
  · rintro ⟨⟩ <;> rfl
  · cases i with
    | sysInit allocOk present => rintro ⟨⟩; exact .sysInit present
    | sysTick | enc | busStart | busStop | busByte | dispBright => rintro ⟨⟩
    | _ => intro _; constructor

theorem a1Column_iff (i : Instr) : A1Column i ↔ readsA1 i = true := by
  constructor
  · rintro ⟨⟩ <;> rfl
  · cases i with
    | brtFlow | fmtSmall | fmtFixs | fmtTime => intro _; constructor
    | _ => rintro ⟨⟩

/-- An argument register the command reads holds no value: by the columns of R81 (R276 item 2). -/
theorem argsHeld_eq_false_iff (i : Instr) (s : State) :
    argsHeld i s = false ↔ (A0Column i ∧ s.held.a0 = false) ∨ (A1Column i ∧ s.held.a1 = false) := by
  rw [a0Column_iff, a1Column_iff, argsHeld]
  cases readsA0 i <;> cases readsA1 i <;> cases s.held.a0 <;> cases s.held.a1 <;> simp

/-! ### Showing a frame -/

/-- A shown frame is all that `showFrame` does. -/
theorem frameShown_showFrame (f : Frame) (s : State) : FrameShown s (showFrame f s) f where
  frame := by simp [showFrame_eq]
  ack := by simp [showFrame_eq]
  only := by simp [showFrame_eq]
  sent := by
    refine ⟨frameEvents s.cfg s.bright f s.drawn, by simp [showFrame_eq], by simp, ?_⟩
    intro d hd
    exact Decoder.run_frameEvents _ _ _ _ d hd

/-- Every FMT command and DISP.WRITE, ready to run, shows some frame (R182, R225). -/
theorem exec_of_writesFrame {s : State} {i : Instr} (h : DisplayReady s) (hi : WritesFrame i) :
    ∃ t f, exec i s = .next t ∧ FrameShown s t f := by
  obtain ⟨f, hf⟩ : ∃ f, exec i s = whenDisplayIdle s (.next (showFrame f s)) := by
    rcases hi with rfl | ⟨_, rfl⟩ | rfl | ⟨_, rfl⟩ | ⟨_, rfl⟩ | ⟨_, rfl⟩ | rfl <;> exact ⟨_, rfl⟩
  exact ⟨_, f, hf.trans (whenDisplayIdle_of_ready h _), frameShown_showFrame f s⟩

theorem whenDisplayIdle_shows {s : State} (h : DisplayReady s) (f : Frame) :
    ∃ t, whenDisplayIdle s (.next (showFrame f s)) = .next t ∧ FrameShown s t f :=
  ⟨_, whenDisplayIdle_of_ready h _, frameShown_showFrame f s⟩

end Sys2Proof.Machine
end

