-- ==== Sys2Proof/Laws/Brightness.lean ====
section
/-! SUPPORT. The brightness functions once and for all: their range, closed forms of CLASSIC and FLOW, the
segment of a HEARTBEAT phase, and what a BRT command leaves. -/

namespace Sys2Proof.Machine

open Sys2Proof.Safety

/-! ### Clamping -/

theorem clamp_eq_max_min {v lo hi : Int} (h : lo ≤ hi) : clamp v lo hi = max lo (min hi v) := by
  unfold clamp
  split <;> [skip; split] <;> omega

theorem clamp_toNat (v m : Nat) : (clamp (v : Int) 0 m).toNat = min v m := by
  rw [clamp_eq_max_min (by omega)]
  omega

theorem clamp_toNat_le (v : Int) (m : Nat) : (clamp v 0 m).toNat ≤ m := by
  rw [clamp_eq_max_min (by omega)]
  omega

/-! ### The triangle -/

theorem scaled_le (maxb : Nat) {p m : Nat} (h : p ≤ m) : maxb * p / m ≤ maxb := by
  apply Nat.div_le_of_le_mul
  rw [Nat.mul_comm m]
  exact Nat.mul_le_mul_left _ h

/-- Inside the period the last clamp of the triangle changes nothing (R124). -/
theorem tri_eq (maxb p T : Nat) (c : Int) (hp : p < T) :
    tri maxb p T c =
      if p < T * (clamp c 0 100).toNat / 100 then maxb * p / (T * (clamp c 0 100).toNat / 100)
      else maxb * (T - p) / (T - T * (clamp c 0 100).toNat / 100) := by
  simp only [tri, clamp_toNat]
  generalize T * (clamp c 0 100).toNat / 100 = m
  split
  · exact Nat.min_eq_left (scaled_le maxb (by omega))
  · exact Nat.min_eq_left (scaled_le maxb (by omega))

theorem tri_le (maxb p T : Nat) (c : Int) : tri maxb p T c ≤ maxb := clamp_toNat_le _ _

theorem pwl_le (c : HbCurve) (maxb p T : Nat) : pwl c maxb p T ≤ maxb := clamp_toNat_le _ _

/-- No waveform exceeds MAXB (R121). -/
theorem brightness_le (c : Config) (maxb t : Nat) (w : Wave) : brightness c maxb t w ≤ maxb := by
  cases w <;> simp [brightness, tri_le, pwl_le]

/-- The byte that goes to BRT holds the whole brightness: nothing is cut off (R121). -/
@[simp] theorem brightnessByte_toNat (c : Config) (maxb : Byte) (t : Nat) (w : Wave) :
    (brightnessByte c maxb t w).toNat = brightness c maxb.toNat t w := by
  have h := brightness_le c maxb.toNat t w
  have := maxb.isLt
  simp only [brightnessByte, BitVec.toNat_ofNat]
  omega

/-! ### Closed forms -/

theorem brightness_classic (c : Config) (maxb t : Nat) :
    brightness c maxb t .classic =
      if t % 3000 < 1500 then maxb * (t % 3000) / 1500 else maxb * (3000 - t % 3000) / 1500 := by
  rw [brightness, tri_eq _ _ _ _ (Nat.mod_lt _ (by decide))]
  simp [triPeriod, clamp]

/-- The FLOW midpoint in milliseconds, 2850, 150 or 1500 (R127, R128). -/
def flowMidpointMs (dischargePositive : Bool) (pw : Int) : Nat :=
  if (if dischargePositive then pw else -pw) > 50 then 2850
  else if (if dischargePositive then pw else -pw) < -50 then 150 else 1500

theorem flowMidpointMs_pos (b : Bool) (pw : Int) : 0 < flowMidpointMs b pw := by
  unfold flowMidpointMs
  split_ifs <;> omega

theorem flowMidpointMs_lt (b : Bool) (pw : Int) : flowMidpointMs b pw < 3000 := by
  unfold flowMidpointMs
  split_ifs <;> omega

theorem flowMidpoint_scaled (b : Bool) (pw : Int) :
    triPeriod * (clamp (flowMidpoint b pw) 0 100).toNat / 100 = flowMidpointMs b pw := by
  simp only [flowMidpoint, flowMidpointMs]
  generalize (if b = true then pw else -pw) = d
  by_cases h1 : d > 50
  · simp [h1, clamp, triPeriod]
  · by_cases h2 : d < -50
    · simp [h1, h2, clamp, triPeriod]
    · simp [h1, h2, clamp, triPeriod]

theorem brightness_flow (c : Config) (maxb t : Nat) (pw : Int) :
    brightness c maxb t (.flow pw) =
      if t % 3000 < flowMidpointMs c.dischargePositive pw then
        maxb * (t % 3000) / flowMidpointMs c.dischargePositive pw
      else maxb * (3000 - t % 3000) / (3000 - flowMidpointMs c.dischargePositive pw) := by
  rw [brightness, tri_eq _ _ _ _ (Nat.mod_lt _ (by decide))]
  simp only [flowMidpoint_scaled]
  rfl

/-! ### The HEARTBEAT segments -/

/-- The period of an alert level, in milliseconds (R130). -/
@[simp] theorem hbPeriod_normal : hbPeriod .normal = 1714 := rfl
@[simp] theorem hbPeriod_warning : hbPeriod .warning = 857 := rfl
@[simp] theorem hbPeriod_error : hbPeriod .error = 600 := rfl

/-- The phase lies in its segment, which owns its left knot (R132). -/
theorem hbSegment_spec {p T : Nat} (hp : p < T) :
    hbKnots[(hbSegment p T).val] * T ≤ 100 * p ∧ 100 * p < hbKnots[(hbSegment p T).val + 1] * T := by
  unfold hbSegment
  split_ifs <;> simp [hbKnots] <;> omega

/-- Some segment owns the phase (R132). -/
theorem hbSegment_exists {p T : Nat} (hp : p < T) :
    ∃ i : Fin 7, hbKnots[i.val] * T ≤ 100 * p ∧ 100 * p < hbKnots[i.val + 1] * T :=
  ⟨hbSegment p T, hbSegment_spec hp⟩

/-- No other segment owns the phase (R132). -/
theorem hbSegment_unique {p T : Nat} {i : Fin 7} (h1 : hbKnots[i.val] * T ≤ 100 * p)
    (h2 : 100 * p < hbKnots[i.val + 1] * T) : hbSegment p T = i := by
  unfold hbSegment
  fin_cases i <;> simp [hbKnots] at h1 h2 <;> split_ifs <;> first | rfl | omega

/-- The curve on the segment of its phase (R132). -/
theorem pwl_eq (c : HbCurve) (maxb : Nat) {p T : Nat} {i : Fin 7} (h1 : hbKnots[i.val] * T ≤ 100 * p)
    (h2 : 100 * p < hbKnots[i.val + 1] * T) {n d : Int} (hn : n = 100 * p - hbKnots[i.val] * T)
    (hd : d = (hbKnots[i.val + 1] - hbKnots[i.val]) * T) :
    (pwl c maxb p T : Int) =
      max 0 (min (maxb : Int)
        (maxb * (c.levels[i.val] * d + ((c.levels[i.val + 1] : Int) - c.levels[i.val]) * n) /
          (c.den * d))) := by
  obtain rfl := hbSegment_unique h1 h2
  subst hn hd
  rw [pwl, clamp_eq_max_min (by omega), Int.toNat_of_nonneg (by omega)]

/-! ### What a BRT command leaves -/

/-- The state after a BRT command (R121). -/
theorem computeBrightness_next (w : Wave) {s : State} (h : s.started = true) :
    ∃ t, computeBrightness w s = .next t ∧ OnlyBrtRes s t ∧ t.res = t.brt.setWidth 32 ∧
      t.brt.toNat = brightness s.cfg s.maxBrightness.toNat s.a0.toNat w := by
  refine ⟨_, by rw [computeBrightness, requireStarted_of_started h], ?_, rfl, ?_⟩
  · simp [OnlyBrtRes, State.setRes, State.setBrt]
  · simp [State.setRes, State.setBrt, unsigned32]

theorem computeBrightness_resOf (w : Wave) (s : State) :
    resOf (computeBrightness w s) =
      if s.started then some (BitVec.ofNat 32 (brightness s.cfg s.maxBrightness.toNat s.a0.toNat w))
      else none := by
  cases h : s.started
  · simp [computeBrightness, h, resOf]
  · obtain ⟨t, h1, -, h3, h4⟩ := computeBrightness_next w h
    simp [h1, ← h4, resOf, h3]

end Sys2Proof.Machine
end

