-- ==== Sys2Proof/Laws/Formatter.lean ====
section
/-! SUPPORT. The formatter's pieces: packed operands as numbers, clamped values, glyphs without a decimal
point, and the words of decimal numbers. -/

namespace Sys2Proof.Machine

open Sys2Proof.Safety

/-- A byte of a packed operand as a number (R66, R86). -/
theorem extractByte_eq (w : Word) (k : Nat) :
    w.extractLsb' k 8 = BitVec.ofNat 8 (w.toNat / 2 ^ k % 256) := by
  apply BitVec.eq_of_toNat_eq
  simp [Nat.shiftRight_eq_div_pow]

/-- A glyph never lights the decimal point (R92, R165). -/
@[simp] theorem glyphByte_getElem_seven (t : SegTable) (c : Byte) : (glyphByte t c)[7] = false := by
  simp [glyphByte]

@[simp] theorem glyphByte_getLsbD_seven (t : SegTable) (c : Byte) : (glyphByte t c).getLsbD 7 = false := by
  simp [glyphByte]

/-! ### Clamped values (R205) -/

theorem intValue_eq (a0 : Word) : intValue a0 = (max 0 (min 9999 a0.toInt)).toNat := by
  rw [intValue, clamp_eq_max_min (by omega)]

theorem intValue_le (a0 : Word) : intValue a0 ≤ 9999 := clamp_toNat_le _ 9999

theorem fix2Value_eq (a0 : Word) : fix2Value a0 = (max 0 (min 9999 (a0.toInt * 100 / 65536))).toNat := by
  rw [fix2Value, clamp_eq_max_min (by omega)]

theorem timeField_eq (w : Word) : timeField w = (max 0 (min 99 w.toInt)).toNat := by
  rw [timeField, clamp_eq_max_min (by omega)]

theorem timeField_le (w : Word) : timeField w ≤ 99 := clamp_toNat_le _ 99

/-! ### Formatting and showing -/

/-- A formatter request shows its frame and does nothing else (R182). -/
theorem frameShown_runFormat (c : FmtCmd Word) (s : State) :
    FrameShown s (runFormat c s) (formatFrame s.cfg.seg c) := frameShown_showFrame _ _

/-! ### The words of decimal numbers (R96, R304) -/

/-- The word of a non-negative decimal that fits is the least one not below it. -/
theorem qWord_toInt {k den : Nat} (hden : 0 < den) (hsmall : den ≤ 65536) (h : k < 32768 * den) :
    (qWord k den).toInt = ((k : Int) * 65536 + (den - 1)) / den := by
  have hlt : ((k : Int) * 65536 + (den - 1)) / den < 2147483648 := by
    apply Int.ediv_lt_of_lt_mul (by omega)
    have : (2147483648 : Int) * den = 65536 * (32768 * den) := by ring
    rw [this]
    have : (k : Int) + 1 ≤ 32768 * den := by exact_mod_cast h
    omega
  have hpos : 0 ≤ ((k : Int) * 65536 + (den - 1)) / den := Int.ediv_nonneg (by omega) (by omega)
  rw [qWord, if_pos (by omega), BitVec.toInt_ofInt, Int.bmod_eq_of_le] <;> omega

end Sys2Proof.Machine
end

