-- ==== Sys2Proof/Laws/PerInstr.lean ====
section
/-! SUPPORT. A statement about each command as syntax: its word is selected by the row of the match-and-mask
table that carries its mnemonic (spec/30_encoding.md R83). -/

namespace Sys2Proof.Laws.EncodesToRow

/-- The word of the command is selected by a row of R83 that names the command. -/
def Statement (i : Instr) : Prop :=
  ∃ r ∈ commandTable, r.mnemonic = i.mnemonic ∧ (encode i &&& r.mask) = r.pattern

theorem sysInit (allocOk present : Bool) : Statement (.sysInit allocOk present) :=
  ⟨⟨"SYS.INIT", 0x0100#16, 0xFFFC#16⟩, by simp [commandTable], rfl, by revert allocOk present; decide⟩

theorem sysTick : Statement .sysTick :=
  ⟨⟨"SYS.TICK", 0x0200#16, 0xFFFF#16⟩, by simp [commandTable], rfl, rfl⟩

theorem brtClassic : Statement .brtClassic :=
  ⟨⟨"BRT.CLASSIC", 0x1000#16, 0xFFFF#16⟩, by simp [commandTable], rfl, rfl⟩

theorem brtFlow : Statement .brtFlow :=
  ⟨⟨"BRT.FLOW", 0x1001#16, 0xFFFF#16⟩, by simp [commandTable], rfl, rfl⟩

theorem brtHeartbeat (alert : BitVec 2) : Statement (.brtHeartbeat alert) :=
  ⟨⟨"BRT.HEARTBEAT", 0x1002#16, 0xFFF3#16⟩, by simp [commandTable], rfl, by revert alert; decide⟩

theorem color (health : BitVec 2) : Statement (.color health) :=
  ⟨⟨"COLOR", 0x1800#16, 0xFFFC#16⟩, by simp [commandTable], rfl, by revert health; decide⟩

theorem rot : Statement .rot :=
  ⟨⟨"ROT", 0x1C00#16, 0xFFFF#16⟩, by simp [commandTable], rfl, rfl⟩

theorem enc (char : Byte) : Statement (.enc char) :=
  ⟨⟨"ENC", 0x2000#16, 0xFF00#16⟩, by simp [commandTable], rfl, by revert char; decide⟩

theorem fmtText : Statement .fmtText :=
  ⟨⟨"FMT.TEXT", 0x3000#16, 0xFFFF#16⟩, by simp [commandTable], rfl, rfl⟩

theorem fmtInt (leadingZero : Bool) : Statement (.fmtInt leadingZero) :=
  ⟨⟨"FMT.INT", 0x3100#16, 0xFFFE#16⟩, by simp [commandTable], rfl, by revert leadingZero; decide⟩

theorem fmtSmall : Statement .fmtSmall :=
  ⟨⟨"FMT.SMALL", 0x3200#16, 0xFFFF#16⟩, by simp [commandTable], rfl, rfl⟩

theorem fmtFixs (dots : BitVec 4) : Statement (.fmtFixs dots) :=
  ⟨⟨"FMT.FIXS", 0x3300#16, 0xFFF0#16⟩, by simp [commandTable], rfl, by revert dots; decide⟩

theorem fmtFix2 (dots : BitVec 4) : Statement (.fmtFix2 dots) :=
  ⟨⟨"FMT.FIX2", 0x3400#16, 0xFFF0#16⟩, by simp [commandTable], rfl, by revert dots; decide⟩

theorem fmtTime (colon : Bool) : Statement (.fmtTime colon) :=
  ⟨⟨"FMT.TIME", 0x3500#16, 0xFFFE#16⟩, by simp [commandTable], rfl, by revert colon; decide⟩

theorem busStart : Statement .busStart :=
  ⟨⟨"BUS.START", 0x4000#16, 0xFFFF#16⟩, by simp [commandTable], rfl, rfl⟩

theorem busStop : Statement .busStop :=
  ⟨⟨"BUS.STOP", 0x4100#16, 0xFFFF#16⟩, by simp [commandTable], rfl, rfl⟩

theorem busByte (byte : Byte) : Statement (.busByte byte) :=
  ⟨⟨"BUS.BYTE", 0x4200#16, 0xFF00#16⟩, by simp [commandTable], rfl, by revert byte; decide⟩

theorem dispWrite : Statement .dispWrite :=
  ⟨⟨"DISP.WRITE", 0x4800#16, 0xFFFF#16⟩, by simp [commandTable], rfl, rfl⟩

theorem dispBright (level : BitVec 3) : Statement (.dispBright level) :=
  ⟨⟨"DISP.BRIGHT", 0x4900#16, 0xFFF8#16⟩, by simp [commandTable], rfl, by revert level; decide⟩

end Sys2Proof.Laws.EncodesToRow
end

