-- ==== Sys2Proof/Laws/State.lean ====
section
/-! SUPPORT. Each register update of Machine/Ops and Machine/Driver against each field of State, so that no
later proof unfolds a record update. -/

namespace Sys2Proof.Machine

variable (s : State)

/-! ### `State.setRes` writes RES (R22) -/

@[simp] theorem State.setRes_cmd (w : Word) : (s.setRes w).cmd = s.cmd := rfl
@[simp] theorem State.setRes_a0 (w : Word) : (s.setRes w).a0 = s.a0 := rfl
@[simp] theorem State.setRes_a1 (w : Word) : (s.setRes w).a1 = s.a1 := rfl
@[simp] theorem State.setRes_res (w : Word) : (s.setRes w).res = w := rfl
@[simp] theorem State.setRes_started (w : Word) : (s.setRes w).started = s.started := rfl
@[simp] theorem State.setRes_present (w : Word) : (s.setRes w).present = s.present := rfl
@[simp] theorem State.setRes_busOpen (w : Word) : (s.setRes w).busOpen = s.busOpen := rfl
@[simp] theorem State.setRes_ack (w : Word) : (s.setRes w).ack = s.ack := rfl
@[simp] theorem State.setRes_lastValid (w : Word) : (s.setRes w).lastValid = s.lastValid := rfl
@[simp] theorem State.setRes_maxBrightness (w : Word) : (s.setRes w).maxBrightness = s.maxBrightness := rfl
@[simp] theorem State.setRes_bright (w : Word) : (s.setRes w).bright = s.bright := rfl
@[simp] theorem State.setRes_nowMs (w : Word) : (s.setRes w).nowMs = s.nowMs := rfl
@[simp] theorem State.setRes_mode (w : Word) : (s.setRes w).mode = s.mode := rfl
@[simp] theorem State.setRes_alert (w : Word) : (s.setRes w).alert = s.alert := rfl
@[simp] theorem State.setRes_health (w : Word) : (s.setRes w).health = s.health := rfl
@[simp] theorem State.setRes_powerW (w : Word) : (s.setRes w).powerW = s.powerW := rfl
@[simp] theorem State.setRes_charge (w : Word) : (s.setRes w).charge = s.charge := rfl
@[simp] theorem State.setRes_voltDv (w : Word) : (s.setRes w).voltDv = s.voltDv := rfl
@[simp] theorem State.setRes_currDa (w : Word) : (s.setRes w).currDa = s.currDa := rfl
@[simp] theorem State.setRes_capWh (w : Word) : (s.setRes w).capWh = s.capWh := rfl
@[simp] theorem State.setRes_frame (w : Word) : (s.setRes w).frame = s.frame := rfl
@[simp] theorem State.setRes_brt (w : Word) : (s.setRes w).brt = s.brt := rfl
@[simp] theorem State.setRes_ledR (w : Word) : (s.setRes w).ledR = s.ledR := rfl
@[simp] theorem State.setRes_ledG (w : Word) : (s.setRes w).ledG = s.ledG := rfl
@[simp] theorem State.setRes_ledB (w : Word) : (s.setRes w).ledB = s.ledB := rfl
@[simp] theorem State.setRes_lastS (w : Word) : (s.setRes w).lastS = s.lastS := rfl
@[simp] theorem State.setRes_pins (w : Word) : (s.setRes w).pins = s.pins := rfl
@[simp] theorem State.setRes_trace (w : Word) : (s.setRes w).trace = s.trace := rfl
@[simp] theorem State.setRes_held (w : Word) : (s.setRes w).held = { s.held with res := true } := rfl
@[simp] theorem State.setRes_cfg (w : Word) : (s.setRes w).cfg = s.cfg := rfl
@[simp] theorem State.setRes_pending (w : Word) : (s.setRes w).pending = s.pending := rfl
@[simp] theorem State.setRes_readData (w : Word) : (s.setRes w).readData = s.readData := rfl
@[simp] theorem State.setRes_drawn (w : Word) : (s.setRes w).drawn = s.drawn := rfl

/-! ### `State.setBrt` writes BRT (R37) -/

@[simp] theorem State.setBrt_cmd (b : Byte) : (s.setBrt b).cmd = s.cmd := rfl
@[simp] theorem State.setBrt_a0 (b : Byte) : (s.setBrt b).a0 = s.a0 := rfl
@[simp] theorem State.setBrt_a1 (b : Byte) : (s.setBrt b).a1 = s.a1 := rfl
@[simp] theorem State.setBrt_res (b : Byte) : (s.setBrt b).res = s.res := rfl
@[simp] theorem State.setBrt_started (b : Byte) : (s.setBrt b).started = s.started := rfl
@[simp] theorem State.setBrt_present (b : Byte) : (s.setBrt b).present = s.present := rfl
@[simp] theorem State.setBrt_busOpen (b : Byte) : (s.setBrt b).busOpen = s.busOpen := rfl
@[simp] theorem State.setBrt_ack (b : Byte) : (s.setBrt b).ack = s.ack := rfl
@[simp] theorem State.setBrt_lastValid (b : Byte) : (s.setBrt b).lastValid = s.lastValid := rfl
@[simp] theorem State.setBrt_maxBrightness (b : Byte) : (s.setBrt b).maxBrightness = s.maxBrightness := rfl
@[simp] theorem State.setBrt_bright (b : Byte) : (s.setBrt b).bright = s.bright := rfl
@[simp] theorem State.setBrt_nowMs (b : Byte) : (s.setBrt b).nowMs = s.nowMs := rfl
@[simp] theorem State.setBrt_mode (b : Byte) : (s.setBrt b).mode = s.mode := rfl
@[simp] theorem State.setBrt_alert (b : Byte) : (s.setBrt b).alert = s.alert := rfl
@[simp] theorem State.setBrt_health (b : Byte) : (s.setBrt b).health = s.health := rfl
@[simp] theorem State.setBrt_powerW (b : Byte) : (s.setBrt b).powerW = s.powerW := rfl
@[simp] theorem State.setBrt_charge (b : Byte) : (s.setBrt b).charge = s.charge := rfl
@[simp] theorem State.setBrt_voltDv (b : Byte) : (s.setBrt b).voltDv = s.voltDv := rfl
@[simp] theorem State.setBrt_currDa (b : Byte) : (s.setBrt b).currDa = s.currDa := rfl
@[simp] theorem State.setBrt_capWh (b : Byte) : (s.setBrt b).capWh = s.capWh := rfl
@[simp] theorem State.setBrt_frame (b : Byte) : (s.setBrt b).frame = s.frame := rfl
@[simp] theorem State.setBrt_brt (b : Byte) : (s.setBrt b).brt = b := rfl
@[simp] theorem State.setBrt_ledR (b : Byte) : (s.setBrt b).ledR = s.ledR := rfl
@[simp] theorem State.setBrt_ledG (b : Byte) : (s.setBrt b).ledG = s.ledG := rfl
@[simp] theorem State.setBrt_ledB (b : Byte) : (s.setBrt b).ledB = s.ledB := rfl
@[simp] theorem State.setBrt_lastS (b : Byte) : (s.setBrt b).lastS = s.lastS := rfl
@[simp] theorem State.setBrt_pins (b : Byte) : (s.setBrt b).pins = s.pins := rfl
@[simp] theorem State.setBrt_trace (b : Byte) : (s.setBrt b).trace = s.trace := rfl
@[simp] theorem State.setBrt_held (b : Byte) : (s.setBrt b).held = { s.held with brt := true } := rfl
@[simp] theorem State.setBrt_cfg (b : Byte) : (s.setBrt b).cfg = s.cfg := rfl
@[simp] theorem State.setBrt_pending (b : Byte) : (s.setBrt b).pending = s.pending := rfl
@[simp] theorem State.setBrt_readData (b : Byte) : (s.setBrt b).readData = s.readData := rfl
@[simp] theorem State.setBrt_drawn (b : Byte) : (s.setBrt b).drawn = s.drawn := rfl

/-! ### `State.setFrame` writes FRAME (R34) -/

@[simp] theorem State.setFrame_cmd (f : Frame) : (s.setFrame f).cmd = s.cmd := rfl
@[simp] theorem State.setFrame_a0 (f : Frame) : (s.setFrame f).a0 = s.a0 := rfl
@[simp] theorem State.setFrame_a1 (f : Frame) : (s.setFrame f).a1 = s.a1 := rfl
@[simp] theorem State.setFrame_res (f : Frame) : (s.setFrame f).res = s.res := rfl
@[simp] theorem State.setFrame_started (f : Frame) : (s.setFrame f).started = s.started := rfl
@[simp] theorem State.setFrame_present (f : Frame) : (s.setFrame f).present = s.present := rfl
@[simp] theorem State.setFrame_busOpen (f : Frame) : (s.setFrame f).busOpen = s.busOpen := rfl
@[simp] theorem State.setFrame_ack (f : Frame) : (s.setFrame f).ack = s.ack := rfl
@[simp] theorem State.setFrame_lastValid (f : Frame) : (s.setFrame f).lastValid = s.lastValid := rfl
@[simp] theorem State.setFrame_maxBrightness (f : Frame) :
    (s.setFrame f).maxBrightness = s.maxBrightness := rfl
@[simp] theorem State.setFrame_bright (f : Frame) : (s.setFrame f).bright = s.bright := rfl
@[simp] theorem State.setFrame_nowMs (f : Frame) : (s.setFrame f).nowMs = s.nowMs := rfl
@[simp] theorem State.setFrame_mode (f : Frame) : (s.setFrame f).mode = s.mode := rfl
@[simp] theorem State.setFrame_alert (f : Frame) : (s.setFrame f).alert = s.alert := rfl
@[simp] theorem State.setFrame_health (f : Frame) : (s.setFrame f).health = s.health := rfl
@[simp] theorem State.setFrame_powerW (f : Frame) : (s.setFrame f).powerW = s.powerW := rfl
@[simp] theorem State.setFrame_charge (f : Frame) : (s.setFrame f).charge = s.charge := rfl
@[simp] theorem State.setFrame_voltDv (f : Frame) : (s.setFrame f).voltDv = s.voltDv := rfl
@[simp] theorem State.setFrame_currDa (f : Frame) : (s.setFrame f).currDa = s.currDa := rfl
@[simp] theorem State.setFrame_capWh (f : Frame) : (s.setFrame f).capWh = s.capWh := rfl
@[simp] theorem State.setFrame_frame (f : Frame) : (s.setFrame f).frame = pack4 f := rfl
@[simp] theorem State.setFrame_brt (f : Frame) : (s.setFrame f).brt = s.brt := rfl
@[simp] theorem State.setFrame_ledR (f : Frame) : (s.setFrame f).ledR = s.ledR := rfl
@[simp] theorem State.setFrame_ledG (f : Frame) : (s.setFrame f).ledG = s.ledG := rfl
@[simp] theorem State.setFrame_ledB (f : Frame) : (s.setFrame f).ledB = s.ledB := rfl
@[simp] theorem State.setFrame_lastS (f : Frame) : (s.setFrame f).lastS = s.lastS := rfl
@[simp] theorem State.setFrame_pins (f : Frame) : (s.setFrame f).pins = s.pins := rfl
@[simp] theorem State.setFrame_trace (f : Frame) : (s.setFrame f).trace = s.trace := rfl
@[simp] theorem State.setFrame_held (f : Frame) : (s.setFrame f).held = { s.held with frame := true } := rfl
@[simp] theorem State.setFrame_cfg (f : Frame) : (s.setFrame f).cfg = s.cfg := rfl
@[simp] theorem State.setFrame_pending (f : Frame) : (s.setFrame f).pending = s.pending := rfl
@[simp] theorem State.setFrame_readData (f : Frame) : (s.setFrame f).readData = s.readData := rfl
@[simp] theorem State.setFrame_drawn (f : Frame) : (s.setFrame f).drawn = s.drawn := rfl

/-! ### `State.setLastS` writes LAST_S and LAST_VALID (R36) -/

@[simp] theorem State.setLastS_cmd (w : Word) : (s.setLastS w).cmd = s.cmd := rfl
@[simp] theorem State.setLastS_a0 (w : Word) : (s.setLastS w).a0 = s.a0 := rfl
@[simp] theorem State.setLastS_a1 (w : Word) : (s.setLastS w).a1 = s.a1 := rfl
@[simp] theorem State.setLastS_res (w : Word) : (s.setLastS w).res = s.res := rfl
@[simp] theorem State.setLastS_started (w : Word) : (s.setLastS w).started = s.started := rfl
@[simp] theorem State.setLastS_present (w : Word) : (s.setLastS w).present = s.present := rfl
@[simp] theorem State.setLastS_busOpen (w : Word) : (s.setLastS w).busOpen = s.busOpen := rfl
@[simp] theorem State.setLastS_ack (w : Word) : (s.setLastS w).ack = s.ack := rfl
@[simp] theorem State.setLastS_lastValid (w : Word) : (s.setLastS w).lastValid = true := rfl
@[simp] theorem State.setLastS_maxBrightness (w : Word) :
    (s.setLastS w).maxBrightness = s.maxBrightness := rfl
@[simp] theorem State.setLastS_bright (w : Word) : (s.setLastS w).bright = s.bright := rfl
@[simp] theorem State.setLastS_nowMs (w : Word) : (s.setLastS w).nowMs = s.nowMs := rfl
@[simp] theorem State.setLastS_mode (w : Word) : (s.setLastS w).mode = s.mode := rfl
@[simp] theorem State.setLastS_alert (w : Word) : (s.setLastS w).alert = s.alert := rfl
@[simp] theorem State.setLastS_health (w : Word) : (s.setLastS w).health = s.health := rfl
@[simp] theorem State.setLastS_powerW (w : Word) : (s.setLastS w).powerW = s.powerW := rfl
@[simp] theorem State.setLastS_charge (w : Word) : (s.setLastS w).charge = s.charge := rfl
@[simp] theorem State.setLastS_voltDv (w : Word) : (s.setLastS w).voltDv = s.voltDv := rfl
@[simp] theorem State.setLastS_currDa (w : Word) : (s.setLastS w).currDa = s.currDa := rfl
@[simp] theorem State.setLastS_capWh (w : Word) : (s.setLastS w).capWh = s.capWh := rfl
@[simp] theorem State.setLastS_frame (w : Word) : (s.setLastS w).frame = s.frame := rfl
@[simp] theorem State.setLastS_brt (w : Word) : (s.setLastS w).brt = s.brt := rfl
@[simp] theorem State.setLastS_ledR (w : Word) : (s.setLastS w).ledR = s.ledR := rfl
@[simp] theorem State.setLastS_ledG (w : Word) : (s.setLastS w).ledG = s.ledG := rfl
@[simp] theorem State.setLastS_ledB (w : Word) : (s.setLastS w).ledB = s.ledB := rfl
@[simp] theorem State.setLastS_lastS (w : Word) : (s.setLastS w).lastS = w := rfl
@[simp] theorem State.setLastS_pins (w : Word) : (s.setLastS w).pins = s.pins := rfl
@[simp] theorem State.setLastS_trace (w : Word) : (s.setLastS w).trace = s.trace := rfl
@[simp] theorem State.setLastS_held (w : Word) : (s.setLastS w).held = s.held := rfl
@[simp] theorem State.setLastS_cfg (w : Word) : (s.setLastS w).cfg = s.cfg := rfl
@[simp] theorem State.setLastS_pending (w : Word) : (s.setLastS w).pending = s.pending := rfl
@[simp] theorem State.setLastS_readData (w : Word) : (s.setLastS w).readData = s.readData := rfl
@[simp] theorem State.setLastS_drawn (w : Word) : (s.setLastS w).drawn = s.drawn := rfl

/-! ### `State.setBright` writes BRIGHT (R38) -/

@[simp] theorem State.setBright_cmd (l : BitVec 3) : (s.setBright l).cmd = s.cmd := rfl
@[simp] theorem State.setBright_a0 (l : BitVec 3) : (s.setBright l).a0 = s.a0 := rfl
@[simp] theorem State.setBright_a1 (l : BitVec 3) : (s.setBright l).a1 = s.a1 := rfl
@[simp] theorem State.setBright_res (l : BitVec 3) : (s.setBright l).res = s.res := rfl
@[simp] theorem State.setBright_started (l : BitVec 3) : (s.setBright l).started = s.started := rfl
@[simp] theorem State.setBright_present (l : BitVec 3) : (s.setBright l).present = s.present := rfl
@[simp] theorem State.setBright_busOpen (l : BitVec 3) : (s.setBright l).busOpen = s.busOpen := rfl
@[simp] theorem State.setBright_ack (l : BitVec 3) : (s.setBright l).ack = s.ack := rfl
@[simp] theorem State.setBright_lastValid (l : BitVec 3) : (s.setBright l).lastValid = s.lastValid := rfl
@[simp] theorem State.setBright_maxBrightness (l : BitVec 3) :
    (s.setBright l).maxBrightness = s.maxBrightness := rfl
@[simp] theorem State.setBright_bright (l : BitVec 3) : (s.setBright l).bright = l := rfl
@[simp] theorem State.setBright_nowMs (l : BitVec 3) : (s.setBright l).nowMs = s.nowMs := rfl
@[simp] theorem State.setBright_mode (l : BitVec 3) : (s.setBright l).mode = s.mode := rfl
@[simp] theorem State.setBright_alert (l : BitVec 3) : (s.setBright l).alert = s.alert := rfl
@[simp] theorem State.setBright_health (l : BitVec 3) : (s.setBright l).health = s.health := rfl
@[simp] theorem State.setBright_powerW (l : BitVec 3) : (s.setBright l).powerW = s.powerW := rfl
@[simp] theorem State.setBright_charge (l : BitVec 3) : (s.setBright l).charge = s.charge := rfl
@[simp] theorem State.setBright_voltDv (l : BitVec 3) : (s.setBright l).voltDv = s.voltDv := rfl
@[simp] theorem State.setBright_currDa (l : BitVec 3) : (s.setBright l).currDa = s.currDa := rfl
@[simp] theorem State.setBright_capWh (l : BitVec 3) : (s.setBright l).capWh = s.capWh := rfl
@[simp] theorem State.setBright_frame (l : BitVec 3) : (s.setBright l).frame = s.frame := rfl
@[simp] theorem State.setBright_brt (l : BitVec 3) : (s.setBright l).brt = s.brt := rfl
@[simp] theorem State.setBright_ledR (l : BitVec 3) : (s.setBright l).ledR = s.ledR := rfl
@[simp] theorem State.setBright_ledG (l : BitVec 3) : (s.setBright l).ledG = s.ledG := rfl
@[simp] theorem State.setBright_ledB (l : BitVec 3) : (s.setBright l).ledB = s.ledB := rfl
@[simp] theorem State.setBright_lastS (l : BitVec 3) : (s.setBright l).lastS = s.lastS := rfl
@[simp] theorem State.setBright_pins (l : BitVec 3) : (s.setBright l).pins = s.pins := rfl
@[simp] theorem State.setBright_trace (l : BitVec 3) : (s.setBright l).trace = s.trace := rfl
@[simp] theorem State.setBright_held (l : BitVec 3) :
    (s.setBright l).held = { s.held with bright := true } := rfl
@[simp] theorem State.setBright_cfg (l : BitVec 3) : (s.setBright l).cfg = s.cfg := rfl
@[simp] theorem State.setBright_pending (l : BitVec 3) : (s.setBright l).pending = s.pending := rfl
@[simp] theorem State.setBright_readData (l : BitVec 3) : (s.setBright l).readData = s.readData := rfl
@[simp] theorem State.setBright_drawn (l : BitVec 3) : (s.setBright l).drawn = s.drawn := rfl

/-! ### `State.showLed` writes the colour registers and TRACE (R37, R258) -/

@[simp] theorem State.showLed_cmd (r g b : Byte) : (s.showLed r g b).cmd = s.cmd := rfl
@[simp] theorem State.showLed_a0 (r g b : Byte) : (s.showLed r g b).a0 = s.a0 := rfl
@[simp] theorem State.showLed_a1 (r g b : Byte) : (s.showLed r g b).a1 = s.a1 := rfl
@[simp] theorem State.showLed_res (r g b : Byte) : (s.showLed r g b).res = s.res := rfl
@[simp] theorem State.showLed_started (r g b : Byte) : (s.showLed r g b).started = s.started := rfl
@[simp] theorem State.showLed_present (r g b : Byte) : (s.showLed r g b).present = s.present := rfl
@[simp] theorem State.showLed_busOpen (r g b : Byte) : (s.showLed r g b).busOpen = s.busOpen := rfl
@[simp] theorem State.showLed_ack (r g b : Byte) : (s.showLed r g b).ack = s.ack := rfl
@[simp] theorem State.showLed_lastValid (r g b : Byte) : (s.showLed r g b).lastValid = s.lastValid := rfl
@[simp] theorem State.showLed_maxBrightness (r g b : Byte) :
    (s.showLed r g b).maxBrightness = s.maxBrightness := rfl
@[simp] theorem State.showLed_bright (r g b : Byte) : (s.showLed r g b).bright = s.bright := rfl
@[simp] theorem State.showLed_nowMs (r g b : Byte) : (s.showLed r g b).nowMs = s.nowMs := rfl
@[simp] theorem State.showLed_mode (r g b : Byte) : (s.showLed r g b).mode = s.mode := rfl
@[simp] theorem State.showLed_alert (r g b : Byte) : (s.showLed r g b).alert = s.alert := rfl
@[simp] theorem State.showLed_health (r g b : Byte) : (s.showLed r g b).health = s.health := rfl
@[simp] theorem State.showLed_powerW (r g b : Byte) : (s.showLed r g b).powerW = s.powerW := rfl
@[simp] theorem State.showLed_charge (r g b : Byte) : (s.showLed r g b).charge = s.charge := rfl
@[simp] theorem State.showLed_voltDv (r g b : Byte) : (s.showLed r g b).voltDv = s.voltDv := rfl
@[simp] theorem State.showLed_currDa (r g b : Byte) : (s.showLed r g b).currDa = s.currDa := rfl
@[simp] theorem State.showLed_capWh (r g b : Byte) : (s.showLed r g b).capWh = s.capWh := rfl
@[simp] theorem State.showLed_frame (r g b : Byte) : (s.showLed r g b).frame = s.frame := rfl
@[simp] theorem State.showLed_brt (r g b : Byte) : (s.showLed r g b).brt = s.brt := rfl
@[simp] theorem State.showLed_ledR (r g b : Byte) : (s.showLed r g b).ledR = r := rfl
@[simp] theorem State.showLed_ledG (r g b : Byte) : (s.showLed r g b).ledG = g := rfl
@[simp] theorem State.showLed_ledB (r g b : Byte) : (s.showLed r g b).ledB = b := rfl
@[simp] theorem State.showLed_lastS (r g b : Byte) : (s.showLed r g b).lastS = s.lastS := rfl
@[simp] theorem State.showLed_pins (r g b : Byte) : (s.showLed r g b).pins = s.pins := rfl
@[simp] theorem State.showLed_trace (r g b : Byte) :
    (s.showLed r g b).trace = s.trace ++ [.ledSet r g b, .ledShow] := rfl
@[simp] theorem State.showLed_held (r g b : Byte) :
    (s.showLed r g b).held = { s.held with led := true } := rfl
@[simp] theorem State.showLed_cfg (r g b : Byte) : (s.showLed r g b).cfg = s.cfg := rfl
@[simp] theorem State.showLed_pending (r g b : Byte) : (s.showLed r g b).pending = s.pending := rfl
@[simp] theorem State.showLed_readData (r g b : Byte) : (s.showLed r g b).readData = s.readData := rfl
@[simp] theorem State.showLed_drawn (r g b : Byte) : (s.showLed r g b).drawn = s.drawn := rfl

end Sys2Proof.Machine
end

