-- ==== Sys2Proof/Laws/System.lean ====
section
/-! SUPPORT. SYS.TICK taken apart: when it runs, what its display path does when a refresh is due and when it
is not, and what its LED path writes. -/

namespace Sys2Proof.Machine

open Sys2Proof.Safety

/-- Every legal alert level has a period (R130). -/
theorem alertLevel_some {a : BitVec 2} (h : a ≠ 3#2) : ∃ l, alertLevel a = some l := by
  have key : ∀ a : BitVec 2, a ≠ 3#2 → (alertLevel a).isSome := by decide
  exact Option.isSome_iff_exists.1 (key a h)

/-- A tick has a waveform unless MODE, or ALERT in HEARTBEAT mode, is reserved (R256). -/
theorem tickWave_ok_iff (s : State) :
    (∃ w, tickWave s = .ok w) ↔ ¬ (s.mode = 3#2 ∨ (s.mode = 2#2 ∧ s.alert = 3#2)) := by
  have four : ∀ m : BitVec 2, m = 0#2 ∨ m = 1#2 ∨ m = 2#2 ∨ m = 3#2 := by decide
  rcases four s.mode with hm | hm | hm | hm <;> rcases four s.alert with ha | ha | ha | ha <;>
    simp [tickWave, animationMode, alertLevel, hm, ha]

/-- A tick that runs runs both paths on the waveform of its inputs. -/
theorem execSysTick_next {s t : State} (h : execSysTick s = .next t) :
    s.started = true ∧ s.busOpen = false ∧ ∃ w, tickWave s = .ok w ∧ t = tick w s := by
  obtain ⟨h1, h⟩ := requireStarted_next h
  obtain ⟨h2, h⟩ := requireBusIdle_next h
  refine ⟨h1, h2, ?_⟩
  split at h
  · rename_i w hw
    exact ⟨w, hw, by simpa using h.symm⟩
  · simp at h

theorem execSysTick_of_wave {s : State} {w : Wave} (h1 : s.started = true) (h2 : s.busOpen = false)
    (hw : tickWave s = .ok w) : execSysTick s = .next (tick w s) := by
  simp [execSysTick, h1, h2, hw]

/-- A tick that refreshes runs (R256). -/
theorem tickWave_of_refreshes {s : State} (h : TickRefreshes s) : ∃ w, tickWave s = .ok w :=
  (tickWave_ok_iff s).2 fun hr => hr.elim h.2.1 fun ⟨hm, ha⟩ => h.2.2 hm ha

/-! ### The display path -/

/-- A display is present and the second is a new one (R257). -/
def RefreshDue (s : State) : Prop :=
  s.present = true ∧ (s.lastValid = false ∨ s.lastS.toNat ≠ s.nowMs.toNat / 1000)

theorem refreshDue_iff (s : State) :
    (s.present && refreshDue s (wholeSeconds (unsigned32 s.nowMs))) = true ↔ RefreshDue s := by
  simp [refreshDue, RefreshDue, wholeSeconds]

/-- The frame a refresh at the sampled time shows (R155, R158, R257). -/
def tickFrame (s : State) : Frame :=
  formatFrame s.cfg.seg (plannedFormat s.cfg.rotPlan (wholeSeconds (unsigned32 s.nowMs)) s.telemetry)

theorem displayPath_due {s : State} (h : RefreshDue s) :
    displayPath (unsigned32 s.nowMs) s.telemetry s =
      (showFrame (tickFrame s) s).setLastS (BitVec.ofNat 32 (s.nowMs.toNat / 1000)) := by
  rw [displayPath, if_pos ((refreshDue_iff s).2 h)]
  rfl

theorem displayPath_not_due {s : State} (h : ¬ RefreshDue s) :
    displayPath (unsigned32 s.nowMs) s.telemetry s = s := by
  rw [displayPath, if_neg (fun hd => h ((refreshDue_iff s).1 hd))]

/-! ### Both paths -/

/-- The brightness a tick computes (R258). -/
def tickBrt (w : Wave) (s : State) : Byte := brightnessByte s.cfg s.maxBrightness s.nowMs.toNat w

/-- The colour a tick shows (R258). -/
def tickRgb (w : Wave) (s : State) : Rgb :=
  selectColor s.maxBrightness (healthStatus s.health) (tickBrt w s)

/-- A tick that refreshes: the frame, the second, the brightness and the colour (R255, R257, R258). -/
theorem tick_due {s : State} (w : Wave) (h : RefreshDue s) :
    tick w s =
      { s with
        frame := pack4 (tickFrame s)
        trace := s.trace ++ frameEvents s.cfg s.bright (tickFrame s) s.drawn ++
          [.ledSet (tickRgb w s).r (tickRgb w s).g (tickRgb w s).b, .ledShow]
        pins := .idle
        busOpen := false
        ack := Config.draw (s.drawn + 6)
        drawn := s.drawn + 7
        lastS := BitVec.ofNat 32 (s.nowMs.toNat / 1000)
        lastValid := true
        brt := tickBrt w s
        ledR := (tickRgb w s).r
        ledG := (tickRgb w s).g
        ledB := (tickRgb w s).b
        held := { s.held with frame := true, ack := true, brt := true, led := true } } := by
  rw [tick, displayPath_due h, showFrame_eq]
  rfl

/-- A tick that does not refresh: the brightness and the colour alone (R257, R258). -/
theorem tick_not_due {s : State} (w : Wave) (h : ¬ RefreshDue s) :
    tick w s =
      { s with
        trace := s.trace ++ [.ledSet (tickRgb w s).r (tickRgb w s).g (tickRgb w s).b, .ledShow]
        brt := tickBrt w s
        ledR := (tickRgb w s).r
        ledG := (tickRgb w s).g
        ledB := (tickRgb w s).b
        held := { s.held with brt := true, led := true } } := by
  rw [tick, displayPath_not_due h]
  rfl

/-- What a tick writes to the LED, refresh or not (R258). -/
theorem tick_led (w : Wave) (s : State) :
    (tick w s).brt = tickBrt w s ∧ (tick w s).ledR = (tickRgb w s).r ∧
      (tick w s).ledG = (tickRgb w s).g ∧ (tick w s).ledB = (tickRgb w s).b := by
  by_cases h : RefreshDue s
  · rw [tick_due w h]
    exact ⟨rfl, rfl, rfl, rfl⟩
  · rw [tick_not_due w h]
    exact ⟨rfl, rfl, rfl, rfl⟩

/-- A packed colour as one number (R150). -/
theorem Rgb.pack_toNat (c : Rgb) :
    c.pack.toNat = c.r.toNat * 65536 + c.g.toNat * 256 + c.b.toNat := by
  have h := toNat_fields 0#8 c.r c.g c.b
  rw [fieldAt_zero, BitVec.zero_or] at h
  simpa [Rgb.pack] using h

end Sys2Proof.Machine
end

