-- ==== Sys2Proof/Laws/Trace.lean ====
section
/-! SUPPORT. The trace as a whole: the pins it leaves, which events it lets follow, the transactions it
spells, and its events with the samples forgotten. -/

namespace Sys2Proof.Machine

open Sys2Proof.Safety

/-! ### The pins a trace leaves -/

/-- The decoder's pins follow the events alone. -/
@[simp] theorem Decoder.step_pins (d : Decoder) (e : Event) : (d.step e).pins = d.pins.after e := by
  cases e with
  | clk v =>
    simp only [Decoder.step, Decoder.clockRise, Pins.after]
    split
    · split <;> rename_i h <;> simp
    · rfl
  | dio v =>
    simp only [Decoder.step, Pins.after]
    split <;> rfl
  | _ => rfl

theorem Decoder.run_pins (d : Decoder) (tr : List Event) : (d.run tr).pins = tr.foldl Pins.after d.pins := by
  induction tr generalizing d with
  | nil => rfl
  | cons e es ih => rw [Decoder.run_cons, ih, Decoder.step_pins, List.foldl_cons]

/-- What is added to the trace is decoded from where the trace stands. -/
theorem traced_append {s t : State} {new : List Event} (h : t.trace = s.trace ++ new) :
    traced t = (traced s).run new := by
  simp [traced, h]

theorem symbols_trace (s : State) : symbols s.trace = (traced s).out := rfl

theorem transactions_eq (s : State) : transactions s = parse (traced s).out := rfl

/-- LED events leave the decoder where it is. -/
@[simp] theorem Decoder.run_ledEvents (d : Decoder) (r g b : Byte) :
    d.run [.ledSet r g b, .ledShow] = d := rfl

/-- What a shown frame adds to the trace spells its symbols and leaves the pins idle (R94, R228). -/
theorem traced_of_frameShown {s t : State} {f : Frame} (h : FrameShown s t f)
    (hp : (traced s).pins = .idle) :
    traced t = ⟨.idle, [], symbols s.trace ++ frameSymbols s.cfg s.bright f⟩ := by
  obtain ⟨events, ht, -, hrun⟩ := h.sent
  rw [traced_append ht, hrun _ hp]
  rfl

/-! ### Lawful traces -/

@[simp] theorem lawfulFrom_nil (p : Pins) : lawfulFrom p [] = true := rfl

@[simp] theorem lawfulFrom_cons (p : Pins) (e : Event) (es : List Event) :
    lawfulFrom p (e :: es) = (p.allows e && lawfulFrom (p.after e) es) := rfl

theorem lawfulFrom_append (p : Pins) (xs ys : List Event) :
    lawfulFrom p (xs ++ ys) = (lawfulFrom p xs && lawfulFrom (xs.foldl Pins.after p) ys) := by
  induction xs generalizing p with
  | nil => simp
  | cons e es ih => simp [ih, Bool.and_assoc]

/-- A trace stays lawful when what is added is lawful from the pins it leaves. -/
theorem lawful_append {tr new : List Event} {p : Pins} (h : lawfulFrom .idle tr = true)
    (hp : (Decoder.init.run tr).pins = p) (hn : lawfulFrom p new = true) :
    lawfulFrom .idle (tr ++ new) = true := by
  rw [lawfulFrom_append, h, Bool.true_and]
  rw [Decoder.run_pins] at hp
  exact hp ▸ hn

theorem lawfulFrom_bitEvents (v : Bool) (p : Pins) (h : p.dioDir = .out) :
    lawfulFrom p (bitEvents v) = true := by
  simp [bitEvents, Pins.allows, Pins.after, h]

theorem after_bitEvents (v : Bool) (p : Pins) :
    (bitEvents v).foldl Pins.after p = ⟨true, p.dioDir, v⟩ := rfl

theorem lawfulFrom_ackEvents (a : Bool) (p : Pins) : lawfulFrom p (ackEvents a) = true := by
  simp [ackEvents, Pins.allows, Pins.after]

/-- A byte is lawful while the block drives the data line (R211, R216). -/
theorem lawfulFrom_byteEvents (b : Byte) (a : Bool) (p : Pins) (h : p.dioDir = .out) :
    lawfulFrom p (byteEvents b a) = true := by
  simp only [byteEvents, bitsOfByte, List.flatMap_cons, List.flatMap_nil, List.append_nil,
    lawfulFrom_append, List.foldl_append, after_bitEvents, lawfulFrom_ackEvents, Bool.and_true]
  simp [lawfulFrom_bitEvents, h, -lawfulFrom_cons]

theorem after_byteEvents (b : Byte) (a : Bool) (p : Pins) :
    (byteEvents b a).foldl Pins.after p = ⟨false, .out, b.getLsbD 7⟩ := by
  simp only [byteEvents, bitsOfByte, List.flatMap_cons, List.flatMap_nil, List.append_nil,
    List.foldl_append, after_bitEvents]
  rfl

/-- A frame write is lawful from idle pins (R211, R226). -/
theorem lawfulFrom_frameEvents (c : Config) (bright : BitVec 3) (f : Frame) (n : Nat) :
    lawfulFrom .idle (frameEvents c bright f n) = true := by
  cases h : c.splitDataCmd <;>
    simp [frameEvents, h, lawfulFrom_append, after_byteEvents, lawfulFrom_byteEvents, stopEvents,
      Pins.allows, Pins.after, Pins.idle]

/-! ### Transactions -/

theorem parse_append (xs ys : List Symbol) : parse (xs ++ ys) = ys.foldl Parse.step (parse xs) := by
  simp [parse]

/-- A frame write adds its two transactions, three when split (R94, R226). -/
theorem parse_frameSymbols (c : Config) (bright : BitVec 3) (f : Frame) {xs : List Symbol}
    (h : (parse xs).current = none) :
    parse (xs ++ frameSymbols c bright f) =
      { parse xs with
        complete := (parse xs).complete ++
          (if c.splitDataCmd then [[c.cmdDataWrite], [cmdAddr0, f.b0, f.b1, f.b2, f.b3]]
            else [[c.cmdDataWrite, cmdAddr0, f.b0, f.b1, f.b2, f.b3]]) ++ [[controlByte bright]] } := by
  rw [parse_append]
  generalize parse xs = p at *
  obtain ⟨current, complete, wellFormed⟩ := p
  subst h
  cases hc : c.splitDataCmd <;> simp [frameSymbols, hc, Parse.step]

/-- The control byte as a number (R93). -/
theorem controlByte_eq : ∀ b : BitVec 3, controlByte b = BitVec.ofNat 8 (0x88 + b.toNat) := by decide

/-- Every control byte is one of a control transaction (R93, R94). -/
theorem controlOfTransaction_controlByte :
    ∀ b : BitVec 3, controlOfTransaction [controlByte b] = some (controlByte b) := by decide

/-! ### Samples forgotten -/

/-- The sample of a byte is the only thing of its events that a draw decides (R216). -/
theorem byteEvents_erase (b : Byte) (a a' : Bool) :
    (byteEvents b a).map eraseSample = (byteEvents b a').map eraseSample := by
  simp [byteEvents, ackEvents, eraseSample]

theorem frameEvents_erase (c : Config) (bright : BitVec 3) (f : Frame) (n n' : Nat) :
    (frameEvents c bright f n).map eraseSample = (frameEvents c bright f n').map eraseSample := by
  simp only [frameEvents, List.map_append]
  rw [byteEvents_erase _ (Config.draw n) (Config.draw n'),
    byteEvents_erase _ (Config.draw (n + 1)) (Config.draw (n' + 1)),
    byteEvents_erase _ (Config.draw (n + 2)) (Config.draw (n' + 2)),
    byteEvents_erase _ (Config.draw (n + 3)) (Config.draw (n' + 3)),
    byteEvents_erase _ (Config.draw (n + 4)) (Config.draw (n' + 4)),
    byteEvents_erase _ (Config.draw (n + 5)) (Config.draw (n' + 5)),
    byteEvents_erase _ (Config.draw (n + 6)) (Config.draw (n' + 6))]

end Sys2Proof.Machine
end

