-- ==== Sys2Proof/Tests/Slice0.lean ====
section
/-! SUPPORT. Tests, each result taken from the spec (spec/95_test_vectors.md unless a comment says
otherwise), and a witness for the hypotheses of each statement. -/

namespace Sys2Proof.Tests

open Sys2Proof.Machine Sys2Proof.Safety

/-! ### Small states -/

/-- After `A0 = 255`, `SYS.INIT alloc_ok=1, present=1` (vectors 2.9), with A1 written too. -/
def ready : State :=
  { State.reset with
    cmd := 0x0103, a0 := 255, res := 1, started := true, present := true, maxBrightness := 255, bright := 7
    trace := [.clk true, .dio true, .dioDir .out]
    held := { Held.none with
      a0 := true, a1 := true, res := true, maxBrightness := true, bright := true, pins := true } }

/-- `ready` with operands. -/
def withArgs (a0 a1 : Word) : State := { ready with a0 := a0, a1 := a1 }

/-- `ready` after BUS.START (R212). -/
def opened : State :=
  { ready with busOpen := true, pins := ⟨true, .out, false⟩, trace := ready.trace ++ [.dio false] }

/-- Some part of the next state, if there is one. -/
def after {α : Type} (r : Result) (f : State → α) : Option α :=
  match r with
  | .next t => some (f t)
  | .fault _ => none
  | .refused _ => none

/-- Why a command is refused, if it is. -/
def why (r : Result) : Option Refusal :=
  match r with
  | .refused x => some x
  | .next _ => none
  | .fault _ => none

/-! ### Well-formedness -/

/-- alert = 3 is excluded (R83, R89). -/
theorem test_alert_three_is_ill_formed : (Instr.brtHeartbeat 3#2).wellFormed = false := by decide

theorem test_alert_two_is_well_formed : (Instr.brtHeartbeat 2#2).wellFormed = true := by decide

/-! ### Decoding: words written out from R81 and R83 -/

theorem test_decode_system_and_brightness :
    decode 0b0000000100000011#16 = .ok (.sysInit true true) ∧
    decode 0b0000000100000010#16 = .ok (.sysInit false true) ∧
    decode 0b0000001000000000#16 = .ok .sysTick ∧ decode 0b0001000000000000#16 = .ok .brtClassic ∧
    decode 0b0001000000000001#16 = .ok .brtFlow ∧ decode 0b0001000000000110#16 = .ok (.brtHeartbeat 1#2) := by
  decide

theorem test_decode_color_rot_enc :
    decode 0b0001100000000011#16 = .ok (.color 3#2) ∧ decode 0b0001110000000000#16 = .ok .rot ∧
    decode 0b0010000001101011#16 = .ok (.enc 0x6B#8) := by decide

theorem test_decode_formatter :
    decode 0b0011000000000000#16 = .ok .fmtText ∧ decode 0b0011000100000001#16 = .ok (.fmtInt true) ∧
    decode 0b0011001000000000#16 = .ok .fmtSmall ∧ decode 0b0011001100000010#16 = .ok (.fmtFixs 2#4) ∧
    decode 0b0011010000001111#16 = .ok (.fmtFix2 15#4) ∧
    decode 0b0011010100000001#16 = .ok (.fmtTime true) := by decide

theorem test_decode_driver :
    decode 0b0100000000000000#16 = .ok .busStart ∧ decode 0b0100000100000000#16 = .ok .busStop ∧
    decode 0b0100001010001010#16 = .ok (.busByte 0x8A#8) ∧ decode 0b0100100000000000#16 = .ok .dispWrite ∧
    decode 0b0100100100000101#16 = .ok (.dispBright 5#3) := by decide

/-- The reserved words of vectors 2.9. -/
theorem test_reserved_words :
    ([0x0000#16, 0x0104#16, 0x0201#16, 0x0300#16, 0x1003#16, 0x1004#16, 0x1005#16, 0x100E#16, 0x1010#16,
      0x1804#16, 0x1C01#16, 0x2100#16, 0x3001#16, 0x3102#16, 0x3201#16, 0x3310#16, 0x3410#16, 0x3502#16,
      0x3600#16, 0x4001#16, 0x4101#16, 0x4300#16, 0x4801#16, 0x4908#16, 0x4A00#16, 0xFFFF#16].all
        fun w => !(decode w).toBool) = true := by decide +kernel

theorem test_table_word : decodeTableWord 16 0x0103 = some (.sysInit true true) := by decide

/-! ### Register packing (R27, R37, R66) -/

theorem test_status_after_init : ready.status = 0x0007FF03#32 := by decide

theorem test_led_packs :
    { State.reset with brt := 170, ledR := 1, ledG := 2, ledB := 170 }.led = 0xAA0102AA#32 := by decide

/-! ### The commands -/

/-- 2.9: `A0 = 100`, word 0x0101 gives STATUS = 0x00076401 and no event. -/
theorem test_init_without_display :
    after (exec (.sysInit true false) { State.reset with a0 := 100 }) (fun t => (t.status, t.res, t.trace)) =
      some (0x00076401#32, 1#32, []) := by decide

/-- R250: failure clears STARTED and PRESENT and leaves MAX_BRIGHTNESS. -/
theorem test_init_failure :
    after (exec (.sysInit false true) ready) (fun t => (t.started, t.present, t.maxBrightness, t.res)) =
      some (false, false, 255#8, 0#32) := by decide

/-- 2.1: the falling side owns the peak; the last value before the wrap. -/
theorem test_classic :
    resOf (exec .brtClassic (withArgs 1500 0)) = some 255#32 ∧
    resOf (exec .brtClassic (withArgs 4294967295 0)) = some 119#32 := by decide

/-- 2.2: 51 W shifts the midpoint, 50 W does not. -/
theorem test_flow :
    resOf (exec .brtFlow (withArgs 750 51)) = some 67#32 ∧
    resOf (exec .brtFlow (withArgs 750 (-51))) = some 201#32 ∧
    resOf (exec .brtFlow (withArgs 750 50)) = some 127#32 := by decide

/-- 2.3: the knot at 25 % of 600 ms, and one vector in full. -/
theorem test_heartbeat :
    resOf (exec (.brtHeartbeat 2#2) (withArgs 150 0)) = some 229#32 ∧
    resOf (exec (.brtHeartbeat 0#2) (withArgs 428 0)) = some 228#32 ∧
    resOf (exec (.brtHeartbeat 1#2) (withArgs 215 0)) = some 227#32 := by decide

/-- 2.4: COLOR reads A0[7:0], does not clamp, and ignores it for ERROR. -/
theorem test_color :
    resOf (exec (.color 1#2) (withArgs 100 0)) = some 0x00646400#32 ∧
    resOf (exec (.color 2#2) (withArgs 100 0)) = some 0x00FF0000#32 ∧
    resOf (exec (.color 0#2) (withArgs 0x1FF 0)) = some 0x0000FF00#32 := by decide

/-- 2.5. -/
theorem test_rot :
    resOf (exec .rot { State.reset with a0 := 23 }) = some 0x37#32 ∧
    resOf (exec .rot { State.reset with a0 := 4294967295 }) = some 0x7F#32 := by decide

/-- 2.6: the fold, a shared bitmap, and the codes just outside the letters. -/
theorem test_enc :
    resOf (exec (.enc 0x6B#8) State.reset) = some 0x76#32 ∧
    resOf (exec (.enc 0x60#8) State.reset) = some 0#32 ∧
    resOf (exec (.enc 0x7B#8) State.reset) = some 0#32 ∧
    resOf (exec (.enc 0xC1#8) State.reset) = some 0#32 := by decide

/-- 2.7: `VOLT` is the frame 1C 3F 38 78. -/
theorem test_text :
    after (exec .fmtText (withArgs 0x544C4F56 0)) (·.frame) = some 0x78383F1C#32 := by decide

/-- 2.7: 305 shows its inner zero; 10000 clamps. -/
theorem test_int :
    after (exec (.fmtInt false) (withArgs 305 0)) (·.frame) = some 0x6D3F4F00#32 ∧
    after (exec (.fmtInt true) (withArgs 10000 0)) (·.frame) = some 0x6F6F6F6F#32 := by decide

/-- 2.7: 99 is the last value shown as digits, 100 the first sentinel. -/
theorem test_small :
    after (exec .fmtSmall (withArgs 99 0x4841)) (·.frame) = some 0x76776F6F#32 ∧
    after (exec .fmtSmall (withArgs 100 0x4841)) (·.frame) = some 0x76776363#32 := by decide

/-- 2.7: the sign is dropped; on overflow the dots are too. -/
theorem test_fixs :
    after (exec (.fmtFixs 2#4) (withArgs 0xFFE68000 0x43)) (·.frame) = some 0x396DED5B#32 ∧
    after (exec (.fmtFixs 2#4) (withArgs 0x00640000 0x576B)) (·.frame) = some 0x7E766363#32 := by decide

/-- 2.7: 3.14159 with the dot on position 0; a negative value clamps to 0. -/
theorem test_fix2 :
    after (exec (.fmtFix2 1#4) (withArgs 0x00032440 0)) (·.frame) = some 0x66064FBF#32 ∧
    after (exec (.fmtFix2 0#4) (withArgs 0xFFFFFEB8 0)) (·.frame) = some 0x3F3F3F3F#32 := by decide

/-- 2.7: both fields clamp, and the colon is on position 1. -/
theorem test_time :
    after (exec (.fmtTime true) (withArgs 100 0xFFFFFFFF)) (·.frame) = some 0x3F3FEF6F#32 := by decide

/-- R212: from idle the trace gains `Dio(0)`. -/
theorem test_bus_start :
    after (exec .busStart ready) (fun t => (t.busOpen, t.pins, t.trace.getLast?)) =
      some (true, ⟨true, .out, false⟩, some (.dio false)) := by decide

/-- R214. -/
theorem test_bus_stop :
    after (exec .busStop opened) (fun t => (t.busOpen, t.pins, t.trace.drop 4)) =
      some (false, .idle, [.clk false, .dio false, .clk true, .dio true]) := by decide

/-- 2.8: BUS.BYTE 0x8A, bit by bit, whatever the draw. -/
theorem test_bus_byte :
    after (exec (.busByte 0x8A#8) opened) (fun t => (t.pins, (t.trace.drop 4).take 24, t.drawn)) =
      some (⟨false, .out, true⟩,
        [.clk false, .dio false, .clk true, .clk false, .dio true, .clk true,
          .clk false, .dio false, .clk true, .clk false, .dio true, .clk true,
          .clk false, .dio false, .clk true, .clk false, .dio false, .clk true,
          .clk false, .dio false, .clk true, .clk false, .dio true, .clk true], 1) := by decide

/-- 2.8: the symbols of DISP.WRITE of 0x5B5B0000 at level 2. -/
theorem test_disp_write :
    after (exec .dispWrite { withArgs 0x5B5B0000 0 with bright := 2 }) (fun t => symbols t.trace) =
      some [.start, .byte 0x40, .byte 0xC0, .byte 0x00, .byte 0x00, .byte 0x5B, .byte 0x5B, .stop,
        .start, .byte 0x8A, .stop] := by decide +kernel

/-- 2.8: DISP.BRIGHT level=5 sends nothing and sets STATUS[18:16]. -/
theorem test_disp_bright :
    after (exec (.dispBright 5#3) ready) (fun t => (t.status, t.trace.length)) =
      some (0x0005FF03#32, 3) := by decide

/-- P2, tick 6: NOW_MS = 6000 shows the voltage 3985, and CLASSIC at phase 0 is dark. -/
theorem test_tick_value :
    after (exec .sysTick { ready with nowMs := 6000, voltDv := 3985 })
      (fun t => (t.frame, t.brt, t.lastS, t.lastValid, t.trace.length)) =
      some (0x6D7F6F4F#32, 0#8, 6#32, true, 225) := by decide +kernel

/-- P2, tick 8: no refresh in the same second; the brightness pulses, the ERROR colour does not. -/
theorem test_tick_error_colour :
    after (exec .sysTick { ready with nowMs := 14250, health := 2, lastValid := true, lastS := 14 })
      (fun t => (t.brt, t.trace.drop 3)) =
      some (127#8, [.ledSet 255 0 0, .ledShow]) := by decide

/-! ### Refusals (2.9) -/

theorem test_refusals :
    why (exec .sysTick State.reset) = some .notStarted ∧
    why (strictExec (.sysInit true true) State.reset) = some .noValue ∧
    why (exec .dispWrite { ready with present := false }) = some .noDisplay ∧
    why (exec .busStop ready) = some .busClosed ∧ why (exec (.sysInit true true) opened) = some .busOpen ∧
    why (exec .sysTick { ready with mode := 3 }) = some .reservedMode ∧
    why (exec .sysTick { ready with mode := 2, alert := 3 }) = some .reservedAlert := by decide

/-- SYS.TICK with MODE = 0 and ALERT = 3 is accepted (2.9). -/
theorem test_tick_ignores_alert :
    after (exec .sysTick { ready with alert := 3 }) (·.lastValid) = some true := by decide

/-! ### The step and the program notation -/

/-- The first command after reset runs (R290). -/
theorem test_first_command :
    after (step (State.reset.withFetchWord 16 0x2032)) (fun t => (t.res, t.cmd, t.pending)) =
      some (0x5B#32, 0x2032#16, []) := by decide

/-- R96: `q(25.5)`, `q(0.09)` and `q(-25.5)`; `"SoC"` and `"kW"`. -/
theorem test_notation :
    qWord 255 10 = 0x00198000#32 ∧ qWord 9 100 = 0x0000170B#32 ∧ qWord (-255) 10 = 0xFFE68000#32 ∧
    text4 "SoC" = 0x00436F53#32 ∧ suf2 "kW" = 0x0000576B#32 := by decide

/-- P1, first two lines. -/
theorem test_program_lines :
    (State.reset.withProgram [.setA0 255, .command (.sysInit true true)]).pending =
      [.hostWrite .word 0x08 255, .hostWrite .word 0x00 0x0103] := by decide

/-! ### Witnesses: concrete values that meet the hypotheses of each statement -/

/-- `ready` with one action to come. -/
def pendingOf (a : Action) : State := { ready with pending := [a] }

/-- The reference configuration is one the spec allows. -/
theorem reference_valid : Config.reference.Valid where
  hb := by constructor <;> decide
  seg := by constructor <;> decide

/-- The invariant holds with a display ready, and with a transaction open. -/
theorem ready_inv : Inv ready := by
  constructor <;> first | exact reference_valid | decide

theorem opened_inv : Inv opened := by
  constructor <;> first | exact reference_valid | decide

theorem witness_DecodeOfEncodeIsTheCommand :
    (Instr.brtHeartbeat 2#2).wellFormed = true ∧ (Instr.dispBright 7#3).wellFormed = true := by decide

theorem witness_EncodeOfDecodedIsTheWord : decode 0x4907#16 = .ok (.dispBright 7#3) := by decide

theorem witness_DecoderAcceptsExactlyTheTable :
    decode 0x20FF#16 = .ok (.enc 0xFF#8) ∧
    (0x20FF#16 &&& 0xFF00#16) = 0x2000#16 ∧ ⟨"ENC", 0x2000#16, 0xFF00#16⟩ ∈ commandTable := by decide

/-- The first and the last OP of every range of R88. -/
theorem witness_ReservedWordsAreRefused_op :
    (pendingOf (.hostWrite .word cmdOffset 0x100E)).pending = [.hostWrite .word cmdOffset 0x100E] ∧
    ∀ op ∈ [0x00, 0x03, 0x0F, 0x11, 0x17, 0x19, 0x1B, 0x1D, 0x1F, 0x21, 0x2F, 0x36, 0x3F, 0x43, 0x47,
      0x4A, 0xFF], ReservedWord op 0 := by decide

/-- The first and the last MOD of every clause of R89 and R90. -/
theorem witness_ReservedWordsAreRefused_mod :
    ∀ w ∈ [(0x10, 0x03), (0x10, 0x0F), (0x10, 0x10), (0x10, 0x0E), (0x10, 0x04), (0x10, 0x05),
      (0x10, 0xFF), (0x01, 4), (0x18, 0xFF), (0x02, 1), (0x1C, 1), (0x30, 1), (0x32, 1), (0x40, 1),
      (0x41, 1), (0x48, 0xFF), (0x31, 2), (0x35, 0xFF), (0x33, 16), (0x34, 0xFF), (0x49, 8)],
      ReservedWord w.1 w.2 := by decide

/-- The words just outside. -/
theorem witness_ReservedWordsAreRefused_neighbours :
    ∀ w ∈ [(0x01, 3), (0x02, 0), (0x10, 0x0A), (0x10, 0x01), (0x18, 3), (0x20, 0xFF), (0x31, 1), (0x33, 15),
      (0x34, 15), (0x35, 1), (0x42, 0xFF), (0x49, 7)], ¬ ReservedWord w.1 w.2 := by decide

theorem witness_StepRunsTheDecodedCommand :
    (pendingOf (.hostWrite .word cmdOffset 0xFFFF0103)).pending =
      [.hostWrite .word cmdOffset 0xFFFF0103] ∧
    decode ((0xFFFF0103#32).setWidth 16) = .ok (.sysInit true true) := by decide

theorem witness_FetchedWordRunsAsItsCommand : (Instr.sysInit true true).wellFormed = true := by decide

/-- The first and the last readable register. -/
theorem witness_HostReadReturnsTheRegister (h : Obligations.HostReadReturnsTheRegister) :
    step (pendingOf (.hostRead .word 0x04)) =
      .next { pendingOf (.hostRead .word 0x04) with pending := [], readData := ready.status } ∧
    step (pendingOf (.hostRead .word 0x40)) =
      .next { pendingOf (.hostRead .word 0x40) with pending := [], readData := ready.lastS } :=
  ⟨h _ _ _ _ rfl (List.mem_of_getElem? (i := 0) rfl), h _ _ _ _ rfl (List.mem_of_getElem? (i := 15) rfl)⟩

/-- The first and the last line of the table. -/
theorem witness_WritesStoreTheWord (h : Obligations.WritesStoreTheWord) :
    step (pendingOf (.hostWrite .word 0x08 5)) =
      .next { ready with a0 := 5, held := { ready.held with a0 := true }, pending := [] } ∧
    step (pendingOf (.drive .capWh 5)) = .next { ready with capWh := 5, pending := [] } :=
  ⟨h (pendingOf (.hostWrite .word 0x08 5)) [] (.hostWrite .word 0x08 5) 5
      { pendingOf (.hostWrite .word 0x08 5) with a0 := 5, held := { ready.held with a0 := true } } rfl
      (List.mem_of_getElem? (i := 0) rfl),
    h (pendingOf (.drive .capWh 5)) [] (.drive .capWh 5) 5
      { pendingOf (.drive .capWh 5) with capWh := 5 } rfl (List.mem_of_getElem? (i := 18) rfl)⟩

theorem witness_HostAccessesOutsideTheMapAreRefused :
    (pendingOf (.hostRead .half 0x04)).pending = [.hostRead .half 0x04] ∧ AccessSize.half ≠ .word ∧
    (0x43#8).toNat % 4 ≠ 0 ∧ (0x44#8).toNat % 4 = 0 ∧ 0x44 ≤ (0x44#8).toNat ∧ (0xFC#8).toNat % 4 = 0 ∧
    0x44 ≤ (0xFC#8).toNat ∧
    (pendingOf (.hostWrite .word 0x40 0)).pending = [.hostWrite .word 0x40 0] ∧
    (pendingOf (.hostRead .word 0x00)).pending = [.hostRead .word 0x00] := by decide

theorem witness_CounterAdvancesAndWraps :
    (pendingOf (.elapse 4294967296)).pending = [.elapse 4294967296] := by decide

theorem witness_PowerOnLeavesTheBlockNotStarted :
    (pendingOf .powerOn).pending = [.powerOn] ∧ worksUnstarted .rot = true ∧
    worksUnstarted (.dispBright 0#3) = false := by decide

/-- SYS.TICK runs on `ready`, and each situation of R276 items 2 to 6 is met by some state. -/
theorem witness_CommandsRunExactlyWhereTheSpecAllows :
    ¬ SpecRefuses .sysTick ready ∧ SpecRefuses (.sysInit true true) State.reset ∧
    SpecRefuses (.fmtTime true) { ready with held := { ready.held with a1 := false } } ∧
    SpecRefuses .busStop ready ∧ SpecRefuses .busStart opened ∧
    SpecRefuses .sysTick { ready with mode := 3 } ∧
    SpecRefuses .sysTick { ready with mode := 2, alert := 3 } := by
  refine ⟨?_, .noA0 (by decide) (.sysInit true), .noA1 (by decide) (.fmtTime true),
    .busClosed (by decide) (by decide), .busOpen (by decide) (by decide),
    .reservedMode rfl rfl, .reservedAlert rfl rfl rfl⟩
  rintro (⟨h, -⟩ | ⟨h, -⟩ | ⟨h, -⟩ | ⟨-, h⟩ | ⟨h, -⟩ | ⟨-, h⟩ | ⟨h, -⟩ | ⟨h, -, -⟩) <;> revert h <;> decide

theorem witness_UnstartedBlockRefusesAllButThree :
    (∃ t, exec (.sysInit false true) ready = .next t) ∧ State.reset.started = false ∧
    worksUnstarted (.color 0#2) = false := ⟨⟨_, rfl⟩, rfl, rfl⟩

/-- The strict machine answers on one state and refuses on another on which the machine answers; a command and
a read with a register that holds no value, and one with none. -/
theorem witness_StrictMachineOnlyAddsRefusals :
    (∃ t, strictStep (pendingOf (.hostRead .word 0x08)) = .next t) ∧
    (∃ t, step { State.reset with pending := [.hostRead .word 0x08] } = .next t) ∧
    strictStep { State.reset with pending := [.hostRead .word 0x08] } = .refused .noValue ∧
    regAt 0x08 = some .a0 ∧ regHeld State.reset .a0 = false ∧
    decode ((0x1C00#32).setWidth 16) = .ok .rot ∧ argsHeld .rot State.reset = false ∧
    argsHeld .rot ready = true :=
  ⟨⟨_, rfl⟩, ⟨_, rfl⟩, rfl, rfl, rfl, by decide, rfl, rfl⟩

/-- A register that holds no value, one that holds one, and an input register. -/
theorem witness_StrictMachineRefusesUnheldReads (h : Obligations.StrictMachineRefusesUnheldReads) :
    strictStep { State.reset with pending := [.hostRead .word 0x08] } = .refused .noValue ∧
    (∃ t, strictStep (pendingOf (.hostRead .word 0x08)) = .next t) ∧
    ∃ t, strictStep { State.reset with pending := [.hostRead .word 0x34] } = .next t :=
  ⟨(h _ [] 0x08 false rfl (List.mem_of_getElem? (i := 0) rfl)).1 rfl,
    ((h _ [] 0x08 true rfl (List.mem_of_getElem? (i := 0) rfl)).2 rfl).imp fun _ ht => ht.1,
    ((h _ [] 0x34 true rfl (List.mem_of_getElem? (i := 15) rfl)).2 rfl).imp fun _ ht => ht.1⟩

theorem witness_ClassicIsTheSymmetricTriangle :
    ready.started = true ∧ (withArgs 1499 0).a0.toNat % 3000 < 1500 ∧
    ¬ (withArgs 1500 0).a0.toNat % 3000 < 1500 ∧ State.reset.started = false ∧
    State.reset.held.a0 = false := by decide

theorem witness_ClassicLaws :
    (withArgs 4294964295 0).a0.toNat + 3000 < 4294967296 ∧ 1 ≤ (1#32).toNat % 3000 ∧
    (2999#32).toNat % 3000 = 3000 - (1#32).toNat % 3000 ∧ ready.started = true ∧
    1 ≤ ready.maxBrightness.toNat ∧ 4294967296 ≤ (4294967295#32).toNat + 1 ∧
    (4294967295#32).toNat + 1 < 8589934592 ∧ ready.maxBrightness = 255#8 := by decide

/-- 51 W, -51 W, 50 W and -50 W: the values where the three midpoints meet (R127). -/
theorem witness_FlowMidpointFollowsThePower :
    ready.started = true ∧ ready.cfg.dischargePositive = true ∧ (withArgs 0 51).a1.toInt > 50 ∧
    (withArgs 0 (-51)).a1.toInt < -50 ∧ -50 ≤ (withArgs 0 (-50)).a1.toInt ∧
    (withArgs 0 50).a1.toInt ≤ 50 ∧ State.reset.held.a1 = false ∧ State.reset.started = false := by decide

theorem witness_FlowLaws :
    (withArgs 4294964295 51).a0.toNat + 3000 < 4294967296 ∧ ready.started = true ∧
    1 ≤ ready.maxBrightness.toNat ∧ (withArgs 2850 51).a1.toInt > 50 ∧
    (withArgs 150 (-51)).a1.toInt < -50 ∧ (withArgs 3000 50).a0.toNat % 3000 = 0 ∧
    (withArgs 3000 50).a1.toInt ≤ 50 := by decide

/-- The first and the last phase of the ERROR period, and the knot at 25 % (R132). -/
theorem witness_HeartbeatIsThePiecewiseCurve :
    ready.started = true ∧ (0 * 600 ≤ 100 * ((withArgs 0 0).a0.toNat % 600)) ∧
    100 * ((withArgs 0 0).a0.toNat % 600) < 10 * 600 ∧
    25 * 600 ≤ 100 * ((withArgs 150 0).a0.toNat % 600) ∧
    100 * ((withArgs 150 0).a0.toNat % 600) < 30 * 600 ∧
    55 * 600 ≤ 100 * ((withArgs 599 0).a0.toNat % 600) ∧
    100 * ((withArgs 599 0).a0.toNat % 600) < 100 * 600 ∧ 2#2 ≠ 3#2 ∧ State.reset.started = false ∧
    State.reset.held.a0 = false := by decide

theorem witness_HeartbeatLaws :
    ready.cfg.hb.Valid ∧ (withArgs 4294965581 0).a0.toNat + 1714 < 4294967296 ∧ ready.started = true ∧
    (∀ i : Fin 8, 10 ≤ ready.cfg.hb.levels[i]) ∧ (∀ i : Fin 8, ready.cfg.hb.levels[i] ≤ 90) ∧
    (2#32).toNat % 1714 * 857 = (1#32).toNat % 857 * 1714 :=
  ⟨reference_valid.hb, by decide, by decide, by decide, by decide, by decide⟩

theorem witness_BrightnessNeverExceedsTheMaximum :
    ready.started = true ∧ (Instr.brtHeartbeat 2#2).wellFormed = true := by decide

/-- Two states that differ in what an earlier command left. -/
theorem witness_BrightnessHasNoMemory :
    ready.started = true ∧ { ready with brt := 9, res := 9 }.started = true ∧
    ready.a0 = { ready with brt := 9, res := 9 }.a0 ∧ ready ≠ { ready with brt := 9, res := 9 } := by decide

theorem witness_ColorPicksTheTriple :
    ready.started = true ∧ State.reset.started = false ∧ State.reset.held.a0 = false := by decide

theorem witness_RotFollowsTheTable : State.reset.held.a0 = false := by decide

theorem witness_RotLaws :
    ∃ t u, exec .rot ready = .next t ∧ exec .rot t = .next u := ⟨_, _, rfl, rfl⟩

/-- The ends of every range of R167, and the codes just outside them. -/
theorem witness_EncLooksUpTheFoldedCharacter :
    (0x30#8).toNat = 0x30 + (0 : Fin 10).val ∧ (0x39#8).toNat = 0x30 + (9 : Fin 10).val ∧
    (0x41#8).toNat = 0x41 + (0 : Fin 26).val ∧ (0x7A#8).toNat = 0x61 + (25 : Fin 26).val ∧
    (0x7B#8).toNat ∉ [0x20, 0x2A, 0x2D, 0x5F] ∧ ¬ (0x61 ≤ (0x7B#8).toNat ∧ (0x7B#8).toNat ≤ 0x7A) ∧
    ¬ (0x41 ≤ (0x40#8).toNat ∧ (0x40#8).toNat ≤ 0x5A) := by decide

theorem witness_EncoderLaws :
    ready.cfg.seg.Valid ∧ 0x61 ≤ (0x61#8).toNat ∧ (0x7A#8).toNat ≤ 0x7A ∧
    (0xFF#8).toNat ∉ [0x20, 0x2A, 0x2D, 0x5F] :=
  ⟨reference_valid.seg, by decide, by decide, by decide⟩

/-- For the FMT statements, BUS.START, DISP.WRITE and the statements on shown frames. -/
theorem witness_DisplayReady :
    DisplayReady ready ∧ (traced ready).pins = .idle ∧ State.reset.started = false ∧
    State.reset.present = false ∧ opened.busOpen = true ∧ State.reset.held.a0 = false ∧
    State.reset.held.a1 = false :=
  ⟨⟨rfl, rfl, rfl⟩, by decide, rfl, rfl, rfl, rfl, rfl⟩

/-- FMT.INT at the edges of its ranges, FMT.SMALL and FMT.FIXS at the edges of theirs. -/
theorem witness_FormatRanges :
    intValue 9 = 9 ∧ intValue 10 = 10 ∧ intValue 999 = 999 ∧ intValue 1000 = 1000 ∧
    (withArgs 9 0).a0.toNat ≤ 9 ∧ 10 ≤ (withArgs 10 0).a0.toNat ∧ (withArgs 99 0).a0.toNat ≤ 99 ∧
    100 ≤ (withArgs 100 0).a0.toNat ∧ fixsMagnitude 0x0063FD71 ≤ 999 ∧
    1000 ≤ fixsMagnitude 0x00640000 := by decide

theorem witness_PlainFormatsShowNoDecimalPoint : ∃ t, exec .fmtText ready = .next t := ⟨_, rfl⟩

theorem witness_DecimalsRoundedUpKeepTheirLastDigit :
    fixsMagnitude (qWord 327679 10) = 327679 ∧ fix2Value (qWord 9999 100) = 9999 := by decide

theorem witness_BusStartOpensTheBus : DisplayReady ready ∧ Inv ready ∧ opened.busOpen = true :=
  ⟨⟨rfl, rfl, rfl⟩, ready_inv, rfl⟩

theorem witness_BusStopReturnsToIdle : DisplayOpen opened ∧ Inv opened ∧ ready.busOpen = false :=
  ⟨⟨rfl, rfl, rfl⟩, opened_inv, rfl⟩

theorem witness_BusByteSendsLeastSignificantFirst :
    DisplayOpen opened ∧ (traced opened).pins.dioDir = .out ∧ (traced opened).bits = [] :=
  ⟨⟨rfl, rfl, rfl⟩, by decide, by decide⟩

/-- For the statements on shown frames: an FMT command, and a tick that refreshes. -/
theorem witness_ShowsFrame : ShowsFrame (.fmtTime true) ready ∧ ShowsFrame .sysTick ready :=
  ⟨.inl (.inr (.inr (.inr (.inr (.inr (.inl ⟨true, rfl⟩)))))),
    .inr ⟨rfl, .inl rfl, by decide, by decide⟩⟩

theorem witness_DispBrightSetsTheNextControlByte :
    ready.started = true ∧ WritesFrame .fmtText ∧ ready.present = true ∧ ready.busOpen = false ∧
    (traced ready).pins = .idle ∧ State.reset.present = false :=
  ⟨rfl, .inl rfl, rfl, rfl, by decide, rfl⟩

/-- Two states whose past samples differ. -/
theorem witness_AcknowledgementIsNeverRead :
    SameButSamples { ready with trace := ready.trace ++ [.sample false] }
      { ready with ack := true, drawn := 1, trace := ready.trace ++ [.sample true] } := ⟨rfl, rfl⟩

theorem witness_DisplayViewShowsTheLastFrame : Inv ready ∧ DisplayReady ready :=
  ⟨ready_inv, rfl, rfl, rfl⟩

theorem witness_SysInitStartsOrStopsTheBlock :
    State.reset.busOpen = false ∧ (traced State.reset).pins = .idle ∧ opened.busOpen = true ∧
    State.reset.held.a0 = false := by decide

theorem witness_TickLedPathIsBrightnessThenColor :
    ready.started = true ∧ ready.busOpen = false ∧ ready.mode = 0#2 ∧ { ready with mode := 1 }.mode = 1#2 ∧
    { ready with mode := 2 }.alert ≠ 3#2 := by decide

/-- A tick that refreshes, one in the same second, one in the next, and one without a display (R257). -/
theorem witness_TickRefreshesOncePerSecond :
    (∃ t, exec .sysTick ready = .next t) ∧ ready.present = true ∧ ready.lastValid = false ∧
    { ready with nowMs := 999, lastValid := true }.nowMs.toNat / 1000 = 0 ∧
    { ready with nowMs := 1000, lastValid := true }.nowMs.toNat / 1000 ≠ 0 ∧
    (∃ t, exec .sysTick { ready with present := false } = .next t) := ⟨⟨_, rfl⟩, by decide, by decide,
      by decide, by decide, ⟨_, rfl⟩⟩

/-- Two ticks of one second (R259). -/
theorem witness_TickLaws :
    ∃ t t', exec .sysTick ready = .next t ∧
      exec .sysTick { ready with lastS := t.lastS, lastValid := t.lastValid } = .next t' ∧
      ready.present = true ∧ Inv ready := ⟨_, _, rfl, rfl, rfl, ready_inv⟩

theorem witness_EachRegisterHasItsWriters : ∃ t, exec (.busByte 0#8) opened = .next t := ⟨_, rfl⟩

theorem witness_InvariantHoldsAtPowerOn : Config.reference.Valid := reference_valid

/-- A command runs from a state that meets the invariant. -/
theorem witness_EveryStepKeepsTheInvariant :
    Inv (ready.withFetchWord 16 0x4000) ∧ ∃ t, step (ready.withFetchWord 16 0x4000) = .next t := by
  refine ⟨?_, _, rfl⟩
  constructor <;> first | exact reference_valid | decide

end Sys2Proof.Tests
end

section
/-! PROOF. The host window: which register an access names, what a read, a write and a command word do, and the
statements about them (spec/10_state.md R20 to R33, spec/20_memory.md R60 to R68). -/

namespace Sys2Proof.Proofs

open Sys2Proof Sys2Proof.Machine Sys2Proof.Safety

variable {s t : State} {a : Action} {rest : List Action} {i : Instr} {off : Byte} {r : Reg} {data : Word}

/-! ### Taking an action -/

theorem takeAction_nil (strict : Bool) (h : s.pending = []) : takeAction strict s = .next s := by
  simp only [takeAction, h]

theorem takeAction_cons (strict : Bool) (h : s.pending = a :: rest) :
    takeAction strict s = performAction strict a { s with pending := rest } := by
  simp only [takeAction, h]

/-! ### The register an access names (R26, R61, R67) -/

/-- Every register of the map stands at a multiple of 4. -/
theorem regAt_aligned (h : regAt off = some r) : off.toNat % 4 = 0 := by
  have aligned : ∀ off : Byte, (regAt off).isSome → off.toNat % 4 = 0 := by decide
  exact aligned off (by simp [h])

/-- CMD stands at its offset alone. -/
theorem regAt_eq_cmd (h : regAt off = some .cmd) : off = cmdOffset := by
  have only : ∀ off : Byte, regAt off = some .cmd → off = cmdOffset := by decide
  exact only off h

theorem accessReg_ok_iff {size : AccessSize} :
    accessReg size off = .ok r ↔ size = .word ∧ regAt off = some r := by
  constructor
  · intro h
    unfold accessReg at h
    split_ifs at h with hsize haligned
    refine ⟨not_not.1 hsize, ?_⟩
    split at h <;> simp_all
  · rintro ⟨rfl, h⟩
    exact accessReg_word (regAt_aligned h) h

theorem accessReg_of_regAt (h : regAt off = some r) : accessReg .word off = .ok r :=
  accessReg_ok_iff.2 ⟨rfl, h⟩

/-- An access that names no register is refused, and not for want of a value. -/
theorem accessReg_error_ne_noValue {size : AccessSize} : accessReg size off ≠ .error .noValue := by
  unfold accessReg
  split_ifs
  · simp
  · simp
  · split <;> simp

/-! ### Reads -/

/-- A host read of a readable register. -/
theorem hostRead_of_regAt (strict : Bool) (h : regAt off = some r) (hr : r ≠ .cmd) (s : State) :
    hostRead strict .word off s =
      if strict && !regHeld s r then .refused .noValue
      else .next { s with readData := readReg s r } := by
  simp only [hostRead, accessReg_of_regAt h]

/-- A host read changes nothing of the block, whatever it answers (R68). -/
theorem hostRead_next {strict : Bool} {size : AccessSize} (h : hostRead strict size off s = .next t) :
    ∃ w, t = { s with readData := w } := by
  unfold hostRead at h
  split at h
  · simp at h
  · simp at h
  · split at h
    · simp at h
    · exact ⟨_, by simpa using h.symm⟩

/-! ### Writes -/

theorem hostWrite_next {strict : Bool} {size : AccessSize} (h : hostWrite strict size off data s = .next t) :
    ∃ r, writeReg strict r data s = .next t := by
  unfold hostWrite at h
  split at h
  · simp at h
  · exact ⟨_, h⟩

theorem hostWrite_cmd (strict : Bool) (data : Word) (s : State) :
    hostWrite strict .word cmdOffset data s = runCommand strict data s := rfl

/-- A word that decodes runs as its command, unless the strict machine misses an argument (R23, R80). -/
theorem runCommand_of_decode (strict : Bool) (h : decode (commandWord data) = .ok i) (s : State) :
    runCommand strict data s =
      if strict && !argsHeld i s then .refused .noValue
      else exec i { s with cmd := commandWord data } := by
  simp only [runCommand, h]

theorem runCommand_of_reserved (strict : Bool) {e : DecodeError} (h : decode (commandWord data) = .error e)
    (s : State) : runCommand strict data s = .refused (.reservedWord e) := by
  simp only [runCommand, h]

theorem runCommand_next (h : runCommand false data s = .next t) :
    ∃ i, exec i { s with cmd := commandWord data } = .next t := by
  cases hd : decode (commandWord data) with
  | error e => simp [runCommand_of_reserved _ hd] at h
  | ok i => exact ⟨i, by simpa [runCommand_of_decode _ hd] using h⟩

/-! ### The step that runs a command -/

/-- A step whose action writes a command word to CMD is exec of its command (R20, R24, R80). -/
theorem step_of_command (h : s.pending = .hostWrite .word cmdOffset data :: rest)
    (hd : decode (commandWord data) = .ok i) :
    step s = exec i { s with pending := rest, cmd := commandWord data } := by
  rw [step, takeAction_cons _ h, performAction, hostWrite_cmd, runCommand_of_decode _ hd]
  rfl

/-- Settles O6: the host write reaches `runCommand`, which decodes the low half of the word. -/
theorem stepRunsTheDecodedCommand : Obligations.StepRunsTheDecodedCommand := by
  intro s data rest i h hd
  exact step_of_command h hd

/-- The decoder reads every well-formed command back from its word, field by field (R80, R81, R83). -/
theorem decode_encode (h : i.wellFormed = true) : decode (encode i) = .ok i := by
  cases i with
  | sysInit allocOk present => revert allocOk present; decide
  | brtHeartbeat alert => revert alert; decide
  | color health => revert health; decide
  | enc char => simp [encode, decode]
  | fmtInt leadingZero => revert leadingZero; decide
  | fmtFixs dots => revert dots; decide
  | fmtFix2 dots => revert dots; decide
  | fmtTime colon => revert colon; decide
  | busByte byte => simp [encode, decode]
  | dispBright level => revert level; decide
  | sysTick | brtClassic | brtFlow | rot | fmtText | fmtSmall | busStart | busStop | dispWrite => decide

/-- Placing a 16-bit word places the host's write of that word. -/
theorem withFetchWord_toNat (s : State) (w : BitVec 16) :
    s.withFetchWord 16 w.toNat = { s with pending := commandAction w :: s.pending } := by
  have hw : BitVec.ofNat 16 (w.toNat % 2 ^ 16) = w := by
    rw [Nat.mod_eq_of_lt w.isLt, BitVec.ofNat_toNat, BitVec.setWidth_eq]
  rw [State.withFetchWord, hw]

/-- Settles O7: the placed action is the host's write of the command's own word, which decodes to it. -/
theorem fetchedWordRunsAsItsCommand : Obligations.FetchedWordRunsAsItsCommand := by
  intro s i hi
  rw [withFetchWord_toNat]
  have hd : decode (commandWord ((encode i).setWidth 32)) = .ok i := by
    rw [commandWord_setWidth, decode_encode hi]
  rw [step_of_command rfl hd, commandWord_setWidth]

/-! ### Reading and writing registers -/

/-- LED as one number (R37). -/
theorem led_eq (s : State) :
    s.led = BitVec.ofNat 32 (s.brt.toNat * 16777216 + s.ledR.toNat * 65536 + s.ledG.toNat * 256 +
      s.ledB.toNat) := by
  rw [← toNat_fields, BitVec.ofNat_toNat, BitVec.setWidth_eq]
  rfl

/-- Settles O8: each row of the map is a readable register, and `readReg` is its word. -/
theorem hostReadReturnsTheRegister : Obligations.HostReadReturnsTheRegister := by
  intro s rest off w h hrow
  obtain ⟨r, hoff, hr, hw⟩ : ∃ r, regAt off = some r ∧ r ≠ .cmd ∧ readReg s r = w := by
    rw [← led_eq] at hrow
    simp only [List.mem_cons, Prod.mk.injEq, List.not_mem_nil, or_false] at hrow
    casesm* _ ∨ _
    all_goals
      obtain ⟨rfl, rfl⟩ := ‹off = _ ∧ _›
      exact ⟨_, rfl, by decide, rfl⟩
  rw [step, takeAction_cons _ h, performAction, hostRead_of_regAt _ hoff hr]
  subst hw
  cases r <;> rfl

/-- Settles O57: each row names a readable register, and `regHeld` is its mark. -/
theorem strictMachineRefusesUnheldReads : Obligations.StrictMachineRefusesUnheldReads := by
  intro s rest off holds h hrow
  obtain ⟨r, hoff, hr, hheld⟩ : ∃ r, regAt off = some r ∧ r ≠ .cmd ∧
      regHeld { s with pending := rest } r = holds := by
    simp only [List.mem_cons, Prod.mk.injEq, List.not_mem_nil, or_false] at hrow
    casesm* _ ∨ _
    all_goals
      obtain ⟨rfl, rfl⟩ := ‹off = _ ∧ _›
      exact ⟨_, rfl, by decide, rfl⟩
  simp only [strictStep, step, takeAction_cons _ h, performAction, hostRead_of_regAt _ hoff hr, hheld]
  cases holds <;> simp

/-- A field of a register, bit by bit. -/
theorem getLsbD_fieldAt {w : Nat} (v : BitVec w) (n j : Nat) :
    (fieldAt v n).getLsbD j = (decide (j < 32) && decide (n ≤ j) && v.getLsbD (j - n)) := by
  simp [fieldAt]
  grind

/-- Settles O9: bit by bit, every other field of STATUS is below or above the bit read. -/
theorem statusFieldsStandInTheirBits : Obligations.StatusFieldsStandInTheirBits := by
  intro s
  refine ⟨?started, ?present, ?busOpen, ?ack, ?lastValid, ?zeroLow, ?maxBrightness, ?bright, ?zeroHigh⟩
  case started | present | busOpen | ack | lastValid =>
    simp only [State.status, BitVec.getLsbD_or, getLsbD_fieldAt]
    simp
  all_goals
    apply BitVec.eq_of_getLsbD_eq
    intro j hj
    simp only [State.status, BitVec.getLsbD_extractLsb', BitVec.getLsbD_or, getLsbD_fieldAt]
    grind

/-- Settles O10: every row is the meaning of its action, the narrow registers taking bits 1:0. -/
theorem writesStoreTheWord : Obligations.WritesStoreTheWord := by
  intro s rest a w t h hrow
  have low2 : w.extractLsb' 0 2 = w.setWidth 2 := (BitVec.setWidth_eq_extractLsb' (by decide)).symm
  rw [step, takeAction_cons _ h]
  rw [low2] at hrow
  simp only [List.mem_cons, Prod.mk.injEq, List.not_mem_nil, or_false] at hrow
  casesm* _ ∨ _
  all_goals
    obtain ⟨rfl, rfl⟩ := ‹a = _ ∧ _›
    rfl

end Sys2Proof.Proofs
end

section
/-! PROOF. The strict machine against the machine (spec/10_state.md R23, log 4): no command refuses for want of
a value, so every such refusal of a strict step is one it adds. -/

namespace Sys2Proof.Proofs

open Sys2Proof Sys2Proof.Machine Sys2Proof.Safety

variable {s t : State} {a : Action} {i : Instr} {r : Result}

/-! ### No command refuses for want of a value -/

theorem requireStarted_ne_noValue (h : r ≠ .refused .noValue) :
    requireStarted s r ≠ .refused .noValue := by
  unfold requireStarted
  split <;> simp [h]

theorem requireDisplay_ne_noValue (h : r ≠ .refused .noValue) :
    requireDisplay s r ≠ .refused .noValue := by
  unfold requireDisplay
  split <;> simp [h]

theorem requireBusIdle_ne_noValue (h : r ≠ .refused .noValue) :
    requireBusIdle s r ≠ .refused .noValue := by
  unfold requireBusIdle
  split <;> simp [h]

theorem whenDisplayIdle_ne_noValue (t : State) : whenDisplayIdle s (.next t) ≠ .refused .noValue :=
  requireStarted_ne_noValue (requireDisplay_ne_noValue (requireBusIdle_ne_noValue (by simp)))

theorem whenDisplayOpen_ne_noValue (t : State) : whenDisplayOpen s (.next t) ≠ .refused .noValue := by
  refine requireStarted_ne_noValue (requireDisplay_ne_noValue ?_)
  unfold requireBusOpen
  split <;> simp

theorem computeBrightness_ne_noValue (w : Wave) : computeBrightness w s ≠ .refused .noValue :=
  requireStarted_ne_noValue (by simp)

/-- A tick without a waveform is refused for MODE or ALERT (R256). -/
theorem tickWave_error_ne_noValue : tickWave s ≠ .error .noValue := by
  unfold tickWave
  split
  · simp
  · simp
  · split <;> simp
  · simp

theorem execSysTick_ne_noValue : execSysTick s ≠ .refused .noValue := by
  refine requireStarted_ne_noValue (requireBusIdle_ne_noValue ?_)
  split
  · simp
  · rename_i e he
    rintro ⟨⟩
    exact tickWave_error_ne_noValue he

/-- The machine reads A0 and A1 whatever their marks (log 4). -/
theorem exec_ne_noValue (i : Instr) (s : State) : exec i s ≠ .refused .noValue := by
  cases i with
  | sysInit => exact requireBusIdle_ne_noValue (by simp)
  | sysTick => exact execSysTick_ne_noValue
  | brtClassic | brtFlow => exact computeBrightness_ne_noValue _
  | brtHeartbeat =>
    simp only [exec, execBrtHeartbeat]
    split
    · exact computeBrightness_ne_noValue _
    · simp
  | color => exact requireStarted_ne_noValue (by simp)
  | rot | enc => simp [exec, execRot, execEnc]
  | fmtText | fmtInt | fmtSmall | fmtFixs | fmtFix2 | fmtTime | busStart | dispWrite =>
    exact whenDisplayIdle_ne_noValue _
  | busStop | busByte => exact whenDisplayOpen_ne_noValue _
  | dispBright => exact requireStarted_ne_noValue (requireDisplay_ne_noValue (by simp))

/-! ### Where the strict machine misses a value -/

/-- The action reads a register that holds no value: a command an argument of which holds none, or a host read
of a readable register that holds none (R23, R276 item 2). -/
inductive ReadsUnheld (s : State) : Action → Prop where
  | argument {data : Word} {i : Instr} (hd : decode (data.setWidth 16) = .ok i)
      (hu : argsHeld i s = false) : ReadsUnheld s (.hostWrite .word cmdOffset data)
  | read {off : Byte} {r : Reg} (hr : regAt off = some r) (hcmd : r ≠ .cmd)
      (hu : regHeld s r = false) : ReadsUnheld s (.hostRead .word off)

/-- There the strict machine refuses. -/
theorem performAction_strict_of_readsUnheld (h : ReadsUnheld s a) :
    performAction true a s = .refused .noValue := by
  cases h with
  | argument hd hu =>
    rw [performAction, hostWrite_cmd, runCommand_of_decode _ hd]
    simp [hu]
  | read hr hcmd hu =>
    rw [performAction, hostRead_of_regAt _ hr hcmd]
    simp [hu]

theorem hostRead_strict_eq {size : AccessSize} {off : Byte} (h : ¬ ReadsUnheld s (.hostRead size off)) :
    hostRead true size off s = hostRead false size off s := by
  cases ha : accessReg size off with
  | error e => simp only [hostRead, ha]
  | ok r =>
    obtain ⟨rfl, hoff⟩ := accessReg_ok_iff.1 ha
    by_cases hcmd : r = .cmd
    · subst hcmd
      simp only [hostRead, ha]
    · have hheld : regHeld s r = true := by
        by_contra hu
        exact h (.read hoff hcmd (by simpa using hu))
      simp [hostRead_of_regAt _ hoff hcmd, hheld]

theorem hostWrite_strict_eq {size : AccessSize} {off : Byte} {data : Word}
    (h : ¬ ReadsUnheld s (.hostWrite size off data)) :
    hostWrite true size off data s = hostWrite false size off data s := by
  cases ha : accessReg size off with
  | error e => simp only [hostWrite, ha]
  | ok r =>
    obtain ⟨rfl, hoff⟩ := accessReg_ok_iff.1 ha
    by_cases hcmd : r = .cmd
    · subst hcmd
      obtain rfl := regAt_eq_cmd hoff
      rw [hostWrite_cmd, hostWrite_cmd]
      cases hd : decode (commandWord data) with
      | error e => simp only [runCommand_of_reserved _ hd]
      | ok i =>
        have hheld : argsHeld i s = true := by
          by_contra hu
          exact h (.argument hd (by simpa using hu))
        simp [runCommand_of_decode _ hd, hheld]
    · simp only [hostWrite, ha]
      cases r with
      | cmd => exact absurd rfl hcmd
      | _ => rfl

/-- Everywhere else it does what the machine does. -/
theorem performAction_strict_eq (h : ¬ ReadsUnheld s a) :
    performAction true a s = performAction false a s := by
  cases a with
  | hostWrite => exact hostWrite_strict_eq h
  | hostRead => exact hostRead_strict_eq h
  | drive | elapse | powerOn => rfl

theorem hostRead_ne_noValue {size : AccessSize} {off : Byte} :
    hostRead false size off s ≠ .refused .noValue := by
  unfold hostRead
  split
  · rename_i e he
    rintro ⟨⟩
    exact accessReg_error_ne_noValue he
  · simp
  · simp

theorem hostWrite_ne_noValue {size : AccessSize} {off : Byte} {data : Word} :
    hostWrite false size off data s ≠ .refused .noValue := by
  unfold hostWrite
  split
  · rename_i e he
    rintro ⟨⟩
    exact accessReg_error_ne_noValue he
  · rename_i r _
    cases r with
    | cmd =>
      cases hd : decode (commandWord data) with
      | error e => simp [writeReg, runCommand_of_reserved _ hd]
      | ok i => simpa [writeReg, runCommand_of_decode _ hd] using exec_ne_noValue i _
    | _ => simp [writeReg]

/-- The machine never refuses for want of a value (log 4). -/
theorem performAction_ne_noValue : performAction false a s ≠ .refused .noValue := by
  cases a with
  | hostWrite => exact hostWrite_ne_noValue
  | hostRead => exact hostRead_ne_noValue
  | drive | elapse | powerOn => simp [performAction]

/-! ### The strict step -/

/-- The oldest action reads a register that holds no value. -/
def StepReadsUnheld (s : State) : Prop := ∃ a rest, s.pending = a :: rest ∧ ReadsUnheld s a

/-- The actions to come have no part in which registers hold a value. -/
theorem regHeld_pending (rest : List Action) (r : Reg) : regHeld { s with pending := rest } r = regHeld s r := by
  cases r <;> rfl

theorem readsUnheld_pending {rest : List Action} :
    ReadsUnheld { s with pending := rest } a ↔ ReadsUnheld s a := by
  constructor
  · rintro (⟨hd, hu⟩ | ⟨hr, hcmd, hu⟩)
    · exact .argument hd hu
    · exact .read hr hcmd (regHeld_pending rest _ ▸ hu)
  · rintro (⟨hd, hu⟩ | ⟨hr, hcmd, hu⟩)
    · exact .argument hd hu
    · exact .read hr hcmd ((regHeld_pending rest _).trans hu)

theorem strictStep_of_readsUnheld (h : StepReadsUnheld s) : strictStep s = .refused .noValue := by
  obtain ⟨a, rest, hp, ha⟩ := h
  rw [strictStep, takeAction_cons _ hp, performAction_strict_of_readsUnheld (readsUnheld_pending.2 ha)]

theorem strictStep_eq_step (h : ¬ StepReadsUnheld s) : strictStep s = step s := by
  rw [strictStep, step]
  cases hp : s.pending with
  | nil => rw [takeAction_nil _ hp, takeAction_nil _ hp]
  | cons a rest =>
    rw [takeAction_cons _ hp, takeAction_cons _ hp, performAction_strict_eq]
    exact fun ha => h ⟨a, rest, hp, readsUnheld_pending.1 ha⟩

theorem step_ne_noValue (s : State) : step s ≠ .refused .noValue := by
  rw [step]
  cases hp : s.pending with
  | nil => simp [takeAction_nil _ hp]
  | cons a rest => rw [takeAction_cons _ hp]; exact performAction_ne_noValue

theorem strictStep_eq_noValue_iff : strictStep s = .refused .noValue ↔ StepReadsUnheld s := by
  refine ⟨fun h => ?_, strictStep_of_readsUnheld⟩
  by_contra hu
  exact step_ne_noValue s (strictStep_eq_step hu ▸ h)

/-- Settles O16: the two machines differ only at `StepReadsUnheld`, where only the strict one refuses. -/
theorem strictMachineOnlyAddsRefusals : Obligations.StrictMachineOnlyAddsRefusals := by
  intro s unheldArgument unheldRead
  have unheld_iff : unheldArgument ∨ unheldRead ↔ StepReadsUnheld s := by
    constructor
    · rintro (⟨data, rest, i, hp, hd, hu⟩ | ⟨off, rest, r, hp, hr, hcmd, hu⟩)
      · exact ⟨_, rest, hp, .argument hd hu⟩
      · exact ⟨_, rest, hp, .read hr hcmd hu⟩
    · rintro ⟨a, rest, hp, (⟨hd, hu⟩ | ⟨hr, hcmd, hu⟩)⟩
      · exact .inl ⟨_, rest, _, hp, hd, hu⟩
      · exact .inr ⟨_, rest, _, hp, hr, hcmd, hu⟩
  rw [unheld_iff]
  refine ⟨strictStep_eq_noValue_iff, strictStep_eq_step, fun t ht => ?_, fun t ht => ?_⟩
  · by_cases hu : StepReadsUnheld s
    · simp [strictStep_of_readsUnheld hu] at ht
    · rw [← strictStep_eq_step hu, ht]
  · by_cases hu : StepReadsUnheld s
    · exact .inr (strictStep_of_readsUnheld hu)
    · exact .inl (by rw [strictStep_eq_step hu, ht])

end Sys2Proof.Proofs
end

section
/-! PROOF. What a command that runs leaves, said once for all nineteen, and who writes which register
(spec/10_state.md R22, R28 to R40, spec/30_encoding.md R81). -/

namespace Sys2Proof.Proofs

open Sys2Proof Sys2Proof.Machine Sys2Proof.Safety

variable {s t : State} {i : Instr}

/-! ### What a command that runs leaves -/

/-- A successful SYS.INIT (R250). -/
theorem initOk_eq (present : Bool) (s : State) :
    initOk present s =
      { s with
        started := true, present := present, maxBrightness := u8 s.a0, bright := s.cfg.dispBrightReset
        lastValid := false, res := 1
        trace := s.trace ++ (if present then [.clk true, .dio true, .dioDir .out] else [])
        pins := if present then .idle else s.pins
        held := { s.held with
          maxBrightness := true, bright := true, res := true, pins := s.held.pins || present } } := by
  cases present <;> simp [initOk, initRegisters, initPins, idlePins, PinOp.apply, State.setRes, Pins.idle]

/-- The states each command can lead to, in the operations that make them, with the conditions of R276 it has
passed. -/
inductive Runs (s : State) : Instr → State → Prop where
  | initOk (present : Bool) (closed : s.busOpen = false) :
    Runs s (.sysInit true present) (Machine.initOk present s)
  | initFailed (present : Bool) (closed : s.busOpen = false) :
    Runs s (.sysInit false present) (Machine.initFailed s)
  /-- A tick that refreshes the display. -/
  | tickShows (ready : DisplayReady s) (f : Frame) (b r g bl : Byte) :
    Runs s .sysTick
      ((((showFrame f s).setLastS (BitVec.ofNat 32 (s.nowMs.toNat / 1000))).setBrt b).showLed r g bl)
  | tickQuiet (b r g bl : Byte) : Runs s .sysTick ((s.setBrt b).showLed r g bl)
  | brightness {i : Instr} (hi : i = .brtClassic ∨ i = .brtFlow ∨ ∃ a, i = .brtHeartbeat a) (b : Byte) (w : Word) :
    Runs s i ((s.setBrt b).setRes w)
  | value {i : Instr} (hi : i = .rot ∨ (∃ h, i = .color h) ∨ ∃ c, i = .enc c) (w : Word) :
    Runs s i (s.setRes w)
  | frame {i : Instr} (hi : WritesFrame i) (ready : DisplayReady s) (f : Frame) : Runs s i (showFrame f s)
  | busStart (ready : DisplayReady s) : Runs s .busStart (runPins startCond s)
  | busStop (isOpen : DisplayOpen s) : Runs s .busStop (runPins stopCond s)
  | busByte (isOpen : DisplayOpen s) (b : Byte) : Runs s (.busByte b) (sendByteResult b s)
  | dispBright (level : BitVec 3) : Runs s (.dispBright level) (s.setBright level)

theorem runs_of_computeBrightness {w : Wave} (hi : i = .brtClassic ∨ i = .brtFlow ∨ ∃ a, i = .brtHeartbeat a)
    (h : computeBrightness w s = .next t) : Runs s i t := by
  obtain ⟨-, h⟩ := requireStarted_next h
  cases h
  exact .brightness hi _ _

/-- Every FMT command and DISP.WRITE is one frame shown under one condition (R182, R225). -/
theorem exec_of_writesFrame_eq (hi : WritesFrame i) (s : State) :
    ∃ f, exec i s = whenDisplayIdle s (.next (showFrame f s)) := by
  rcases hi with rfl | ⟨_, rfl⟩ | rfl | ⟨_, rfl⟩ | ⟨_, rfl⟩ | ⟨_, rfl⟩ | rfl <;> exact ⟨_, rfl⟩

theorem runs_of_writesFrame (hi : WritesFrame i) (h : exec i s = .next t) : Runs s i t := by
  obtain ⟨f, hf⟩ := exec_of_writesFrame_eq hi s
  obtain ⟨ready, h⟩ := whenDisplayIdle_next (hf ▸ h)
  cases h
  exact .frame hi ready f

theorem runs_of_execSysTick (h : execSysTick s = .next t) : Runs s .sysTick t := by
  obtain ⟨hstarted, hclosed, w, -, rfl⟩ := execSysTick_next h
  rw [tick]
  by_cases hdue : RefreshDue s
  · rw [displayPath_due hdue]
    exact .tickShows ⟨hstarted, hdue.1, hclosed⟩ _ _ _ _ _
  · rw [displayPath_not_due hdue]
    exact .tickQuiet _ _ _ _

/-- A command that answers a next state leaves one of these. -/
theorem runs_of_exec (h : exec i s = .next t) : Runs s i t := by
  cases i with
  | sysInit allocOk present =>
    obtain ⟨closed, h⟩ := requireBusIdle_next h
    cases h
    cases allocOk
    · exact .initFailed present closed
    · exact .initOk present closed
  | sysTick => exact runs_of_execSysTick h
  | brtClassic => exact runs_of_computeBrightness (.inl rfl) h
  | brtFlow => exact runs_of_computeBrightness (.inr (.inl rfl)) h
  | brtHeartbeat alert =>
    simp only [exec, execBrtHeartbeat] at h
    split at h
    · exact runs_of_computeBrightness (.inr (.inr ⟨alert, rfl⟩)) h
    · simp at h
  | color health =>
    obtain ⟨-, h⟩ := requireStarted_next h
    cases h
    exact .value (.inr (.inl ⟨health, rfl⟩)) _
  | rot =>
    cases h
    exact .value (.inl rfl) _
  | enc char =>
    cases h
    exact .value (.inr (.inr ⟨char, rfl⟩)) _
  | fmtText | fmtInt | fmtSmall | fmtFixs | fmtFix2 | fmtTime | dispWrite =>
    exact runs_of_writesFrame (by simp [WritesFrame]) h
  | busStart =>
    obtain ⟨ready, h⟩ := whenDisplayIdle_next h
    cases h
    exact .busStart ready
  | busStop =>
    obtain ⟨isOpen, h⟩ := whenDisplayOpen_next h
    cases h
    exact .busStop isOpen
  | busByte byte =>
    obtain ⟨isOpen, h⟩ := whenDisplayOpen_next h
    cases h
    exact .busByte isOpen byte
  | dispBright level =>
    obtain ⟨-, h⟩ := requireStarted_next h
    obtain ⟨-, h⟩ := requireDisplay_next h
    cases h
    exact .dispBright level

/-! ### Who writes what -/

/-- No command writes the arguments, the input registers, the configuration or the host's own. -/
theorem runs_keeps_inputs (h : Runs s i t) :
    t.a0 = s.a0 ∧ t.a1 = s.a1 ∧ t.cmd = s.cmd ∧ t.nowMs = s.nowMs ∧ t.mode = s.mode ∧
      t.alert = s.alert ∧ t.health = s.health ∧ t.powerW = s.powerW ∧ t.charge = s.charge ∧
      t.voltDv = s.voltDv ∧ t.currDa = s.currDa ∧ t.capWh = s.capWh ∧ t.cfg = s.cfg ∧
      t.pending = s.pending ∧ t.readData = s.readData := by
  cases h <;>
    simp [initOk_eq, initFailed, showFrame_eq, runPins_startCond, runPins_stopCond, sendByteResult_eq]

/-- The registers of SYS.INIT, and what SYS.TICK and DISP.BRIGHT write of them. -/
theorem runs_keeps_settings (h : Runs s i t) (hi : ∀ a p, i ≠ .sysInit a p) :
    t.started = s.started ∧ t.present = s.present ∧ t.maxBrightness = s.maxBrightness ∧
      (i ≠ .sysTick → t.lastS = s.lastS ∧ t.lastValid = s.lastValid) ∧
      ((∀ l, i ≠ .dispBright l) → t.bright = s.bright) := by
  cases h with
  | initOk | initFailed => simp at hi
  | _ => simp [showFrame_eq, runPins_startCond, runPins_stopCond, sendByteResult_eq]

theorem runs_keeps_led (h : Runs s i t) (hi : i ≠ .sysTick) :
    t.ledR = s.ledR ∧ t.ledG = s.ledG ∧ t.ledB = s.ledB ∧
      (i ≠ .brtClassic → i ≠ .brtFlow → (∀ a, i ≠ .brtHeartbeat a) → t.brt = s.brt) := by
  cases h with
  | tickShows | tickQuiet => simp at hi
  | brightness hi => rcases hi with rfl | rfl | ⟨_, rfl⟩ <;> simp
  | _ => simp [initOk_eq, initFailed, showFrame_eq, runPins_startCond, runPins_stopCond, sendByteResult_eq]

theorem runs_writes_frame (h : Runs s i t) : i = .sysTick ∨ WritesFrame i ∨ t.frame = s.frame := by
  cases h with
  | tickShows | tickQuiet => simp
  | frame hi => exact .inr (.inl hi)
  | _ => simp [initOk_eq, initFailed, runPins_startCond, runPins_stopCond, sendByteResult_eq]

theorem runs_writes_res (h : Runs s i t) :
    i ∈ [.brtClassic, .brtFlow, .rot] ∨ (∃ a p, i = .sysInit a p) ∨ (∃ a, i = .brtHeartbeat a) ∨
      (∃ h, i = .color h) ∨ (∃ c, i = .enc c) ∨ (∃ b, i = .busByte b) ∨ t.res = s.res := by
  cases h with
  | brightness hi => rcases hi with rfl | rfl | ⟨_, rfl⟩ <;> simp
  | value hi => rcases hi with rfl | ⟨_, rfl⟩ | ⟨_, rfl⟩ <;> simp
  | _ => simp [showFrame_eq, runPins_startCond, runPins_stopCond]

theorem isDisplayCommand_of_writesFrame (hi : WritesFrame i) : isDisplayCommand i = true := by
  rcases hi with rfl | ⟨_, rfl⟩ | rfl | ⟨_, rfl⟩ | ⟨_, rfl⟩ | ⟨_, rfl⟩ | rfl <;> rfl

/-- The bus is driven by the display commands, SYS.TICK and a successful SYS.INIT alone. -/
theorem runs_keeps_bus (h : Runs s i t) (hd : isDisplayCommand i = false) (ht : i ≠ .sysTick)
    (hp : ∀ p, i ≠ .sysInit true p) :
    t.pins = s.pins ∧ t.busOpen = s.busOpen ∧ t.ack = s.ack ∧ t.drawn = s.drawn ∧ t.trace = s.trace := by
  cases h with
  | initOk => simp at hp
  | tickShows | tickQuiet => simp at ht
  | frame hi => simp [isDisplayCommand_of_writesFrame hi] at hd
  | busStart | busStop | busByte | dispBright => simp [isDisplayCommand] at hd
  | initFailed | brightness | value => simp [initFailed]

/-- TRACE only grows. -/
theorem runs_extends_trace (h : Runs s i t) : ∃ events, t.trace = s.trace ++ events := by
  cases h <;>
    simp [initOk_eq, initFailed, showFrame_eq, runPins_startCond, runPins_stopCond, sendByteResult_eq]

/-- Settles O54: register by register, from what each command leaves. -/
theorem eachRegisterHasItsWriters : Obligations.EachRegisterHasItsWriters := by
  intro i s t h
  have hruns := runs_of_exec h
  refine ⟨runs_keeps_inputs hruns, runs_keeps_settings hruns, runs_keeps_led hruns, ?_,
    runs_writes_res hruns, runs_keeps_bus hruns, runs_extends_trace hruns⟩
  rcases runs_writes_frame hruns with rfl | hi | hkeep
  · simp
  · rcases hi with rfl | ⟨_, rfl⟩ | rfl | ⟨_, rfl⟩ | ⟨_, rfl⟩ | ⟨_, rfl⟩ | rfl <;> simp
  · simp [hkeep]

end Sys2Proof.Proofs
end

section
/-! PROOF. The invariant (spec/10_state.md R39, R42, spec/44_protocol_driver.md R210, R211, R232): it holds at
power-on, each operation on the state keeps it, and so every command and every step keeps it. -/

namespace Sys2Proof.Proofs

open Sys2Proof Sys2Proof.Machine Sys2Proof.Safety

variable {s t : State}

/-! ### What the invariant asks of the bus -/

/-- The clauses of the invariant about the decoder of the trace and BUS_OPEN (R210, R211, R232). -/
structure BusInv (d : Decoder) (isOpen : Bool) : Prop where
  closed_idle : isOpen = false → d.pins = .idle
  open_driven : isOpen = true → d.pins.dioDir = .out ∧ (d.pins.clk = false ∨ d.pins.dioOut = false)
  no_loose_bits : d.bits = []
  well_bracketed : (parse d.out).wellFormed = true
  open_iff : (parse d.out).current.isSome = isOpen

theorem bus_of_inv (h : Inv s) : BusInv (traced s) s.busOpen :=
  ⟨h.closed_idle, h.open_driven, h.no_loose_bits, h.well_bracketed, h.open_iff⟩

/-- Between transactions the symbols spell none that is open. -/
theorem BusInv.current_none {d : Decoder} (h : BusInv d false) : (parse d.out).current = none := by
  simpa using h.open_iff

/-- Inside a transaction the symbols spell its bytes so far. -/
theorem BusInv.current_some {d : Decoder} (h : BusInv d true) : ∃ bs, (parse d.out).current = some bs :=
  Option.isSome_iff_exists.1 h.open_iff

/-- START opens a transaction (R210, R212). -/
theorem BusInv.start {d : Decoder} (h : BusInv d false) :
    BusInv ⟨⟨true, .out, false⟩, [], d.out ++ [.start]⟩ true where
  closed_idle := by simp
  open_driven := by simp
  no_loose_bits := rfl
  well_bracketed := by simp [parse_append, Parse.step, h.current_none, h.well_bracketed]
  open_iff := by simp [parse_append, Parse.step, h.current_none]

/-- STOP closes it (R210, R214). -/
theorem BusInv.stop {d : Decoder} (h : BusInv d true) : BusInv ⟨.idle, [], d.out ++ [.stop]⟩ false := by
  obtain ⟨bs, hbs⟩ := h.current_some
  exact
    { closed_idle := fun _ => rfl
      open_driven := by simp
      no_loose_bits := rfl
      well_bracketed := by simp [parse_append, Parse.step, hbs, h.well_bracketed]
      open_iff := by simp [parse_append, Parse.step, hbs] }

/-- A byte stands inside it, and leaves the clock low (R210, R217). -/
theorem BusInv.byte {d : Decoder} (h : BusInv d true) (b : Byte) (dio : Bool) :
    BusInv ⟨⟨false, .out, dio⟩, [], d.out ++ [.byte b]⟩ true := by
  obtain ⟨bs, hbs⟩ := h.current_some
  exact
    { closed_idle := by simp
      open_driven := by simp
      no_loose_bits := rfl
      well_bracketed := by simp [parse_append, Parse.step, hbs, h.well_bracketed]
      open_iff := by simp [parse_append, Parse.step, hbs] }

/-- A frame write is whole transactions (R94, R226). -/
theorem BusInv.frame {d : Decoder} (h : BusInv d false) (c : Config) (bright : BitVec 3) (f : Frame) :
    BusInv ⟨.idle, [], d.out ++ frameSymbols c bright f⟩ false where
  closed_idle := fun _ => rfl
  open_driven := by simp
  no_loose_bits := rfl
  well_bracketed := by simp [parse_frameSymbols c bright f h.current_none, h.well_bracketed]
  open_iff := by simp [parse_frameSymbols c bright f h.current_none, h.current_none]

/-! ### Power-on -/

theorem inv_powerOnWith {c : Config} (hc : c.Valid) : Inv (State.powerOnWith c) where
  cfg_valid := hc
  present_started := by simp [State.powerOnWith]
  open_present := by simp [State.powerOnWith]
  started_held := by simp [State.powerOnWith]
  present_held := by simp [State.powerOnWith]
  last_second := by simp [State.powerOnWith]
  pins_traced := by simp [State.powerOnWith]
  closed_idle := fun _ => rfl
  open_driven := by simp [State.powerOnWith]
  no_loose_bits := rfl
  well_bracketed := rfl
  open_iff := rfl
  lawful := rfl

/-- The reference levels fall and rise as R131 asks, and the reference bitmaps meet R169. -/
theorem reference_config_valid : Config.reference.Valid where
  hb := by constructor <;> decide
  seg := by constructor <;> decide

/-- Settles O55: at power-on the trace is empty, so the decoder stands at its start. -/
theorem invariantHoldsAtPowerOn : Obligations.InvariantHoldsAtPowerOn :=
  ⟨fun _ hc => inv_powerOnWith hc, inv_powerOnWith reference_config_valid⟩

/-! ### Registers the invariant does not read -/

theorem inv_setRes (h : Inv s) (w : Word) : Inv (s.setRes w) := { h with }

theorem inv_setBrt (h : Inv s) (b : Byte) : Inv (s.setBrt b) := { h with }

/-- DISP.BRIGHT gives BRIGHT a value, which a started block has already. -/
theorem inv_setBright (h : Inv s) (level : BitVec 3) : Inv (s.setBright level) :=
  { h with started_held := fun hs => ⟨(h.started_held hs).1, rfl⟩ }

/-- A whole-second count of a 32-bit millisecond counter (R36). -/
theorem inv_setLastS (h : Inv s) (now : Word) : Inv (s.setLastS (BitVec.ofNat 32 (now.toNat / 1000))) :=
  { h with
    last_second := fun _ => by
      have := now.isLt
      simp only [State.setLastS_lastS, BitVec.toNat_ofNat]
      omega }

theorem inv_driveInput (h : Inv s) (reg : InputReg) (data : Word) : Inv (driveInput reg data s) := by
  cases reg <;> exact { h with }

/-- Power-on keeps what the environment drives and the host's own, which the invariant does not read. -/
theorem inv_powerOn (h : Inv s) : Inv (powerOn s) := { inv_powerOnWith h.cfg_valid with }

/-! ### Operations that add to the trace -/

/-- The registers the invariant reads that no pin procedure writes. -/
def settledRegs (s : State) :=
  (s.cfg, s.started, s.present, s.lastValid, s.lastS, s.held.maxBrightness, s.held.bright, s.held.pins)

/-- With a display, events that are lawful where the trace stands and leave the decoder at `d` keep the
invariant, if the pins and BUS_OPEN go with `d`. -/
theorem inv_of_events {events : List Event} {d : Decoder} (h : Inv s) (hpresent : s.present = true)
    (hregs : settledRegs t = settledRegs s) (htrace : t.trace = s.trace ++ events)
    (hrun : (traced s).run events = d) (hpins : d.pins = t.pins)
    (hlawful : lawfulFrom (traced s).pins events = true) (hbus : BusInv d t.busOpen) : Inv t := by
  simp only [settledRegs, Prod.mk.injEq] at hregs
  obtain ⟨hcfg, hstarted, hpres, hvalid, hlast, hmax, hbright, hheld⟩ := hregs
  have htraced : traced t = d := by rw [traced_append htrace, hrun]
  exact
    { cfg_valid := hcfg ▸ h.cfg_valid
      present_started := by rw [hpres, hstarted]; exact h.present_started
      open_present := fun _ => by rw [hpres, hpresent]
      started_held := by rw [hstarted, hmax, hbright]; exact h.started_held
      present_held := by rw [hpres, hheld]; exact h.present_held
      last_second := by rw [hvalid, hlast]; exact h.last_second
      pins_traced := fun _ => by rw [htraced, hpins]
      closed_idle := by rw [htraced]; exact hbus.closed_idle
      open_driven := by rw [htraced]; exact hbus.open_driven
      no_loose_bits := by rw [htraced]; exact hbus.no_loose_bits
      well_bracketed := by rw [transactions_eq, htraced]; exact hbus.well_bracketed
      open_iff := by rw [transactions_eq, htraced]; exact hbus.open_iff
      lawful := by rw [htrace]; exact lawful_append h.lawful rfl hlawful }

/-- BUS.START finds idle pins (R211, R212). -/
theorem inv_startCond (h : Inv s) (hready : DisplayReady s) : Inv (runPins startCond s) := by
  obtain ⟨-, hpresent, hclosed⟩ := hready
  have hidle : (traced s).pins = .idle := h.closed_idle hclosed
  have hpins : s.pins = .idle := by rw [← h.pins_traced hpresent, hidle]
  have hbus : BusInv (traced s) false := hclosed ▸ bus_of_inv h
  rw [runPins_startCond]
  refine inv_of_events h hpresent rfl rfl (Decoder.run_start _ hidle) ?_ ?_ hbus.start
  · simp [hpins, Pins.idle]
  · simp [hidle, Pins.idle, Pins.allows]

/-- BUS.STOP finds the data line driven, and the clock or the line low (R214, R232). -/
theorem inv_stopCond (h : Inv s) (hopen : DisplayOpen s) : Inv (runPins stopCond s) := by
  obtain ⟨-, hpresent, hopen⟩ := hopen
  obtain ⟨hout, hlow⟩ := h.open_driven hopen
  have hpins : s.pins.dioDir = .out := by rw [← h.pins_traced hpresent, hout]
  have hbus : BusInv (traced s) true := hopen ▸ bus_of_inv h
  rw [runPins_stopCond]
  refine inv_of_events h hpresent rfl rfl (Decoder.run_stop _ hout hlow) ?_ ?_ hbus.stop
  · simp [hpins, Pins.idle]
  · simp [hout, stopEvents, Pins.allows, Pins.after]

/-- BUS.BYTE finds the data line driven and no loose bits (R217, R232). -/
theorem inv_sendByteResult (h : Inv s) (hopen : DisplayOpen s) (b : Byte) : Inv (sendByteResult b s) := by
  obtain ⟨-, hpresent, hopen⟩ := hopen
  obtain ⟨hout, -⟩ := h.open_driven hopen
  have hbus : BusInv (traced s) true := hopen ▸ bus_of_inv h
  rw [sendByteResult_eq]
  exact inv_of_events h hpresent rfl rfl (Decoder.run_byteEvents b _ _ hout h.no_loose_bits) rfl
    (lawfulFrom_byteEvents b _ _ hout) (by simpa [hopen] using hbus.byte b (b.getLsbD 7))

/-- A frame write starts from and returns to idle pins (R226, R232). -/
theorem inv_showFrame (h : Inv s) (hready : DisplayReady s) (f : Frame) : Inv (showFrame f s) := by
  obtain ⟨-, hpresent, hclosed⟩ := hready
  have hidle : (traced s).pins = .idle := h.closed_idle hclosed
  have hbus : BusInv (traced s) false := hclosed ▸ bus_of_inv h
  rw [showFrame_eq]
  refine inv_of_events h hpresent rfl rfl (Decoder.run_frameEvents _ _ f _ _ hidle) rfl ?_
    (hbus.frame _ _ f)
  rw [hidle]
  exact lawfulFrom_frameEvents _ _ f _

/-- LED events are no bus events: the decoder stays where it is (R228, R258). -/
theorem inv_showLed (h : Inv s) (r g b : Byte) : Inv (s.showLed r g b) := by
  have htraced : traced (s.showLed r g b) = traced s := by
    rw [traced_append (State.showLed_trace s r g b), Decoder.run_ledEvents]
  exact
    { h with
      pins_traced := by rw [htraced]; exact h.pins_traced
      closed_idle := by rw [htraced]; exact h.closed_idle
      open_driven := by rw [htraced]; exact h.open_driven
      no_loose_bits := by rw [htraced]; exact h.no_loose_bits
      well_bracketed := by rw [transactions_eq, htraced]; exact h.well_bracketed
      open_iff := by rw [transactions_eq, htraced]; exact h.open_iff
      lawful := lawful_append h.lawful rfl rfl }

/-! ### SYS.INIT -/

theorem inv_initFailed (h : Inv s) (hclosed : s.busOpen = false) : Inv (initFailed s) :=
  { h with
    present_started := by simp [initFailed]
    open_present := by simp [initFailed, hclosed]
    started_held := by simp [initFailed]
    present_held := by simp [initFailed]
    pins_traced := by simp [initFailed] }

/-- Putting idle pins into the idle state again spells nothing (R228, R250). -/
theorem run_idleEvents {d : Decoder} (h : d.pins = .idle) : d.run [.clk true, .dio true, .dioDir .out] = d := by
  obtain ⟨pins, bits, out⟩ := d
  simp only at h
  subst h
  rfl

/-- A successful SYS.INIT finds the trace idle, and leaves it so (R250). -/
theorem inv_initOk (h : Inv s) (hclosed : s.busOpen = false) (present : Bool) : Inv (initOk present s) := by
  have hidle : (traced s).pins = .idle := h.closed_idle hclosed
  have htraced : traced (initOk present s) = traced s := by
    rw [initOk_eq, traced_append rfl]
    cases present
    · rfl
    · exact run_idleEvents hidle
  have hlawful : lawfulFrom .idle (initOk present s).trace = true := by
    rw [initOk_eq]
    cases present
    · exact lawful_append h.lawful rfl rfl
    · exact lawful_append h.lawful hidle rfl
  have hpins : present = true → (initOk present s).pins = .idle := by
    rintro rfl
    rw [initOk_eq]
    rfl
  exact
    { cfg_valid := by simpa [initOk_eq] using h.cfg_valid
      present_started := by simp [initOk_eq]
      open_present := by simp [initOk_eq, hclosed]
      started_held := by simp [initOk_eq]
      present_held := by simp +contextual [initOk_eq]
      last_second := by simp [initOk_eq]
      pins_traced := fun hp => by rw [htraced, hidle, hpins (by simpa [initOk_eq] using hp)]
      closed_idle := fun _ => by rw [htraced, hidle]
      open_driven := by simp [initOk_eq, hclosed]
      no_loose_bits := by rw [htraced]; exact h.no_loose_bits
      well_bracketed := by rw [transactions_eq, htraced]; exact h.well_bracketed
      open_iff := by rw [transactions_eq, htraced, initOk_eq]; exact h.open_iff
      lawful := hlawful }

/-! ### Every command and every step -/

theorem inv_runs {i : Instr} (h : Inv s) (hruns : Runs s i t) : Inv t := by
  cases hruns with
  | initOk present closed => exact inv_initOk h closed present
  | initFailed present closed => exact inv_initFailed h closed
  | tickShows ready f b r g bl =>
    exact inv_showLed (inv_setBrt (inv_setLastS (inv_showFrame h ready f) s.nowMs) b) r g bl
  | tickQuiet b r g bl => exact inv_showLed (inv_setBrt h b) r g bl
  | brightness _ b w => exact inv_setRes (inv_setBrt h b) w
  | value _ w => exact inv_setRes h w
  | frame _ ready f => exact inv_showFrame h ready f
  | busStart ready => exact inv_startCond h ready
  | busStop isOpen => exact inv_stopCond h isOpen
  | busByte isOpen b => exact inv_sendByteResult h isOpen b
  | dispBright level => exact inv_setBright h level

theorem inv_runCommand {data : Word} (h : Inv s) (hrun : runCommand false data s = .next t) : Inv t := by
  obtain ⟨i, hi⟩ := runCommand_next hrun
  have hcmd : Inv { s with cmd := commandWord data } := { h with }
  exact inv_runs hcmd (runs_of_exec hi)

theorem inv_writeReg {r : Reg} {data : Word} (h : Inv s) (hw : writeReg false r data s = .next t) : Inv t := by
  cases r with
  | cmd => exact inv_runCommand h hw
  | a0 | a1 =>
    cases hw
    exact { h with }
  | mode | alert | health | powerW | charge | voltDv | currDa | capWh =>
    cases hw
    exact inv_driveInput h _ _
  | status | res | nowMs | frame | led | lastS => simp [writeReg] at hw

theorem inv_performAction {a : Action} (h : Inv s) (ha : performAction false a s = .next t) : Inv t := by
  cases a with
  | hostWrite size off data =>
    obtain ⟨r, hw⟩ := hostWrite_next ha
    exact inv_writeReg h hw
  | hostRead size off =>
    obtain ⟨w, rfl⟩ := hostRead_next ha
    exact { h with }
  | drive reg data =>
    cases ha
    exact inv_driveInput h reg data
  | elapse ms =>
    cases ha
    exact { h with }
  | powerOn =>
    cases ha
    exact inv_powerOn h

/-- Settles O56: an action taken is one of `performAction`, and each keeps the invariant; the commands do by
`inv_runs`, one lemma for each operation on the state. -/
theorem everyStepKeepsTheInvariant : Obligations.EveryStepKeepsTheInvariant := by
  intro s t h hstep
  rw [step] at hstep
  cases hp : s.pending with
  | nil =>
    rw [takeAction_nil _ hp] at hstep
    cases hstep
    exact h
  | cons a rest =>
    rw [takeAction_cons _ hp] at hstep
    have hrest : Inv { s with pending := rest } := { h with }
    exact inv_performAction hrest hstep

end Sys2Proof.Proofs
end

section
/-! PROOF. Host accesses outside the register map, and what the display has been sent after a frame is shown
(spec/20_memory.md R61 to R64, R67, spec/44_protocol_driver.md R228). -/

namespace Sys2Proof.Proofs

open Sys2Proof Sys2Proof.Machine Sys2Proof.Safety

variable {s t : State} {rest : List Action} {i : Instr} {size : AccessSize} {off : Byte} {data : Word}

/-! ### Accesses that name no register (R61, R67) -/

theorem accessReg_narrow (h : size ≠ .word) : accessReg size off = .error .narrowAccess := by
  simp [accessReg, h]

theorem accessReg_misaligned (h : off.toNat % 4 ≠ 0) : accessReg .word off = .error .misalignedAccess := by
  simp [accessReg, h]

theorem accessReg_reserved (haligned : off.toNat % 4 = 0) (h : 0x44 ≤ off.toNat) :
    accessReg .word off = .error .reservedOffset := by
  simp [accessReg, haligned, regAt_reserved off h]

/-- A host access that names no register is refused for that reason, read and write alike. -/
theorem step_of_accessReg_error {e : Refusal}
    (hp : s.pending = .hostWrite size off data :: rest ∨ s.pending = .hostRead size off :: rest)
    (he : accessReg size off = .error e) : step s = .refused e := by
  rcases hp with hp | hp
  · simp only [step, takeAction_cons _ hp, performAction, hostWrite, he]
  · simp only [step, takeAction_cons _ hp, performAction, hostRead, he]

/-! ### Accesses a register does not allow (R61) -/

/-- STATUS, RES, NOW_MS, FRAME, LED and LAST_S are read only. -/
theorem hostWrite_readOnly (strict : Bool) (h : off ∈ [0x04#8, 0x10#8, 0x14#8, 0x38#8, 0x3C#8, 0x40#8]) :
    hostWrite strict .word off data s = .refused .readOnlyRegister := by
  simp only [List.mem_cons, List.not_mem_nil, or_false] at h
  rcases h with rfl | rfl | rfl | rfl | rfl | rfl <;> rfl

/-- Settles O11: the width, the alignment and the offset are tested before any register is reached, and the
register reached says the rest. -/
theorem hostAccessesOutsideTheMapAreRefused : Obligations.HostAccessesOutsideTheMapAreRefused := by
  intro s rest size off data
  refine ⟨fun hp => ⟨?narrow, ?misaligned, ?reserved⟩, ?readOnly, ?writeOnly⟩
  case narrow => exact fun hsize => step_of_accessReg_error hp (accessReg_narrow hsize)
  case misaligned =>
    rintro rfl hoff
    exact step_of_accessReg_error hp (accessReg_misaligned hoff)
  case reserved =>
    rintro rfl haligned hoff
    exact step_of_accessReg_error hp (accessReg_reserved haligned hoff)
  case readOnly =>
    intro hp hoff
    rw [step, takeAction_cons _ hp, performAction, hostWrite_readOnly _ hoff]
  case writeOnly =>
    intro hp
    rw [step, takeAction_cons _ hp]
    rfl

/-! ### The symbols of a shown frame (R94, R228) -/

/-- A tick that refreshes, from idle pins, spells the symbols of its frame: the LED events after them spell
nothing (R257, R258). -/
theorem traced_tick_due (w : Wave) (hdue : RefreshDue s) (hidle : (traced s).pins = .idle) :
    traced (tick w s) =
      ⟨.idle, [], symbols s.trace ++ frameSymbols s.cfg s.bright (unpack4 (tick w s).frame)⟩ := by
  rw [tick_due w hdue, traced_append (List.append_assoc ..), Decoder.run_append, Decoder.run_ledEvents,
    Decoder.run_frameEvents _ _ _ _ _ hidle, unpack4_pack4, symbols_trace]

/-- A command that shows a frame runs, and from idle pins spells the symbols of what is then in FRAME. -/
theorem exec_spells_frame (hready : DisplayReady s) (hidle : (traced s).pins = .idle) (hi : ShowsFrame i s) :
    ∃ t, exec i s = .next t ∧
      traced t = ⟨.idle, [], symbols s.trace ++ frameSymbols s.cfg s.bright (unpack4 t.frame)⟩ := by
  rcases hi with hwrites | ⟨rfl, hrefresh⟩
  · obtain ⟨t, f, ht, hshown⟩ := exec_of_writesFrame hready hwrites
    exact ⟨t, ht, hshown.frame ▸ traced_of_frameShown hshown hidle⟩
  · obtain ⟨hstarted, hpresent, hclosed⟩ := hready
    obtain ⟨w, hw⟩ := tickWave_of_refreshes hrefresh
    have hdue : RefreshDue s := ⟨hpresent, hrefresh.1⟩
    exact ⟨tick w s, execSysTick_of_wave hstarted hclosed hw, traced_tick_due w hdue hidle⟩

/-! ### The display's view (R62, R64) -/

/-- After whole transactions, a frame write is the last frame and the last control byte the device has been
sent; where the data-write command is a transaction of its own, it is not a frame (R226). -/
theorem display_of_symbols {c : Config} {bright : BitVec 3} {f : Frame} {tr tr' : List Event}
    (hclosed : (parse (symbols tr)).current = none)
    (h : symbols tr' = symbols tr ++ frameSymbols c bright f) :
    display c tr' = ⟨some f, some (controlByte bright)⟩ := by
  have hcontrol := controlOfTransaction_controlByte bright
  rw [display, h, parse_frameSymbols c bright f hclosed]
  cases hsplit : c.splitDataCmd <;> simp [hsplit, hcontrol, frameOfTransaction]

/-- Settles O47: the invariant leaves no transaction open on a closed bus, so the symbols of the frame are
whole transactions of their own. -/
theorem displayViewShowsTheLastFrame : Obligations.DisplayViewShowsTheLastFrame := by
  intro s i hinv hready hi
  have ⟨_, _, hclosed⟩ := hready
  have hbus : BusInv (traced s) false := hclosed ▸ bus_of_inv hinv
  obtain ⟨t, ht, htraced⟩ := exec_spells_frame hready (hinv.closed_idle hclosed) hi
  have hsymbols := (symbols_trace t).trans (congrArg Decoder.out htraced)
  exact ⟨t, ht, by rw [display_of_symbols hbus.current_none hsymbols, controlByte_eq]⟩

end Sys2Proof.Proofs
end

section
/-! PROOF. The command word (spec/30_encoding.md R80 to R90): the decoder and the encoder undo each other, the
match-and-mask table, the reserved words; and the symbols of a shown frame (R94). -/

namespace Sys2Proof.Proofs

open Sys2Proof Sys2Proof.Machine Sys2Proof.Safety

variable {w : BitVec 16} {s t : State} {i j : Instr}

/-! ### Decoding, then encoding -/

/-- Settles O1: the decoder reads back each field the encoder placed. -/
theorem decodeOfEncodeIsTheCommand : Obligations.DecodeOfEncodeIsTheCommand :=
  fun _ hi => decode_encode hi

/-- The words of OP 0x10 by their fields (R81, R82, R89). -/
theorem decodeBrt_ok_iff {m : BitVec 8} :
    decodeBrt m = .ok i ↔ m.extractLsb' 4 4 = 0#4 ∧
      (m.extractLsb' 0 2 = 0#2 ∧ m.extractLsb' 2 2 = 0#2 ∧ .brtClassic = i ∨
        m.extractLsb' 0 2 = 1#2 ∧ m.extractLsb' 2 2 = 0#2 ∧ .brtFlow = i ∨
        m.extractLsb' 0 2 = 2#2 ∧ m.extractLsb' 2 2 ≠ 3#2 ∧ .brtHeartbeat (m.extractLsb' 2 2) = i) := by
  simp only [decodeBrt]
  split_ifs <;> simp_all

/-- A value whose high `k` bits are zero is its low `n` bits. -/
theorem zero_append_low {k n : Nat} {m : BitVec (k + n)} (hz : m.extractLsb' n k = 0#k) :
    0#k ++ m.extractLsb' 0 n = m := by
  rw [← hz, BitVec.extractLsb'_append_extractLsb'_eq_extractLsb' (Nat.zero_add n).symm,
    BitVec.extractLsb'_eq_self]

/-- One low bit, as the flag of FMT.INT and FMT.TIME. -/
theorem ofBool_getLsbD_zero : ∀ m : BitVec 8, BitVec.ofBool (m.getLsbD 0) = m.extractLsb' 0 1 := by
  decide

/-- Two low bits, as the flags of SYS.INIT. -/
theorem zero_append_ofBool_append_ofBool : ∀ m : BitVec 8,
    0#6 ++ BitVec.ofBool (m.getLsbD 1) ++ BitVec.ofBool (m.getLsbD 0) = 0#6 ++ m.extractLsb' 0 2 := by
  decide

/-- Where MOD bits are checked, it is enough that the command's own word is the one decoded. -/
theorem encode_of_whenZero {n : Nat} {z : BitVec n} (h : whenZero z i = .ok j)
    (hi : i.wellFormed = true) (henc : z = 0#n → encode i = w) : encode j = w ∧ j.wellFormed = true := by
  obtain ⟨hz, rfl⟩ := whenZero_ok.1 h
  exact ⟨henc hz, hi⟩

/-- The fields of MOD in OP 0x10 (R81). -/
theorem brtFields_append : ∀ m : BitVec 8,
    m.extractLsb' 4 4 ++ m.extractLsb' 2 2 ++ m.extractLsb' 0 2 = m := by decide

/-- An accepted word of OP 0x10 is its command's own word. -/
theorem encode_of_decodeBrt {m : BitVec 8} (h : decodeBrt m = .ok i) :
    encode i = 0x10#8 ++ m ∧ i.wellFormed = true := by
  have hm := brtFields_append m
  obtain ⟨hzero, ⟨hmode, halert, rfl⟩ | ⟨hmode, halert, rfl⟩ | ⟨hmode, halert, rfl⟩⟩ := decodeBrt_ok_iff.1 h
  · rw [hzero, halert, hmode] at hm
    exact ⟨congrArg (0x10#8 ++ ·) hm, rfl⟩
  · rw [hzero, halert, hmode] at hm
    exact ⟨congrArg (0x10#8 ++ ·) hm, rfl⟩
  · rw [hzero, hmode] at hm
    exact ⟨congrArg (0x10#8 ++ ·) hm, by simpa [Instr.wellFormed] using halert⟩

/-- An accepted word is its command's own word, OP by OP (R80, R81, R90). -/
theorem encode_of_decode_append {op m : BitVec 8} (h : decode (op ++ m) = .ok i) :
    encode i = op ++ m ∧ i.wellFormed = true := by
  have op_eq {n : Nat} (hn : op.toNat = n) : op = BitVec.ofNat 8 n := by
    rw [← hn, BitVec.ofNat_toNat, BitVec.setWidth_eq]
  simp only [decode, opField_append, modField_append] at h
  split at h
  -- SYS.INIT, with two flags
  case h_1 hop =>
    exact encode_of_whenZero h rfl fun hz => by
      rw [encode, zero_append_ofBool_append_ofBool, zero_append_low hz, op_eq hop]
  -- the commands whose MOD is zero
  case h_2 hop | h_5 hop | h_7 hop | h_9 hop | h_13 hop | h_14 hop | h_16 hop =>
    exact encode_of_whenZero h rfl fun hz => by rw [encode, hz, op_eq hop]
  -- OP 0x10
  case h_3 hop =>
    rw [op_eq hop]
    exact encode_of_decodeBrt h
  -- COLOR, FMT.FIXS, FMT.FIX2 and DISP.BRIGHT, with a field in the low bits
  case h_4 hop | h_10 hop | h_11 hop | h_17 hop =>
    exact encode_of_whenZero h rfl fun hz => by rw [encode, zero_append_low hz, op_eq hop]
  -- FMT.INT and FMT.TIME, with one flag
  case h_8 hop | h_12 hop =>
    exact encode_of_whenZero h rfl fun hz => by
      rw [encode, ofBool_getLsbD_zero, zero_append_low hz, op_eq hop]
  -- ENC and BUS.BYTE, whose MOD is free
  case h_6 hop | h_15 hop =>
    cases h
    exact ⟨by rw [encode, op_eq hop], rfl⟩
  case h_18 => cases h

/-- Settles O2: a word is its OP and its MOD. -/
theorem encodeOfDecodedIsTheWord : Obligations.EncodeOfDecodedIsTheWord := by
  intro w i h
  rw [← opField_append_modField w] at h ⊢
  exact encode_of_decode_append h

/-! ### Reserved words (R88 to R90) -/

theorem exists_whenZero_ok_iff {n : Nat} {z : BitVec n} :
    (∃ j, whenZero z i = .ok j) ↔ z = 0#n := by
  simp [whenZero_ok]

/-- The high `k` bits are zero below `2 ^ n`. -/
theorem extractLsb'_high_eq_zero_iff {k n : Nat} {m : BitVec (k + n)} :
    m.extractLsb' n k = 0#k ↔ m.toNat < 2 ^ n := by
  have hm : m.toNat < 2 ^ n * 2 ^ k := by
    rw [← Nat.pow_add]
    exact (Nat.add_comm k n) ▸ m.isLt
  rw [← BitVec.toNat_inj, BitVec.extractLsb'_toNat, Nat.shiftRight_eq_div_pow,
    Nat.mod_eq_of_lt (Nat.div_lt_of_lt_mul hm), BitVec.toNat_ofNat, Nat.zero_mod]
  simp [Nat.div_eq_zero_iff]

/-- The words of OP 0x10 as numbers (R82, R89). -/
theorem exists_decodeBrt_ok_iff (m : BitVec 8) :
    (∃ i, decodeBrt m = .ok i) ↔
      ¬ (m.toNat % 4 = 3 ∨ 16 ≤ m.toNat ∨ m.toNat / 4 % 4 = 3 ∨ (m.toNat % 4 ≤ 1 ∧ m.toNat / 4 % 4 ≠ 0)) := by
  simp only [decodeBrt_ok_iff, exists_and_left, exists_or, exists_eq', and_true, ← BitVec.toNat_inj,
    BitVec.extractLsb'_toNat, ne_eq, Nat.shiftRight_eq_div_pow, BitVec.toNat_ofNat]
  omega

/-- The decoder accepts exactly the words that are not reserved, OP by OP (R88 to R90). -/
theorem exists_decode_ok_iff (w : BitVec 16) :
    (∃ i, decode w = .ok i) ↔ ¬ ReservedWord (opField w).toNat (modField w).toNat := by
  have hop := (opField w).isLt
  simp only [decode]
  generalize (opField w).toNat = op at hop ⊢
  generalize modField w = m
  split
  -- the commands whose MOD is zero
  case h_2 | h_5 | h_7 | h_9 | h_13 | h_14 | h_16 =>
    simp [exists_whenZero_ok_iff, ← BitVec.toNat_inj]
  -- OP 0x10
  case h_3 => simp [exists_decodeBrt_ok_iff]
  -- ENC and BUS.BYTE, whose MOD is free
  case h_6 | h_15 => simp
  -- the commands with a field in the low bits of MOD
  case h_1 | h_4 | h_8 | h_10 | h_11 | h_12 | h_17 =>
    simp [exists_whenZero_ok_iff, extractLsb'_high_eq_zero_iff]
  -- an OP with no row
  case h_18 =>
    have hrow : ReservedWord op m.toNat := by
      refine .inl ?_
      simp only [imp_false] at *
      omega
    simp [hrow]

/-- Settles O5: OP and MOD are bits 15:8 and 7:0 of the word written, and the decoder's error is the reason. -/
theorem reservedWordsAreRefused : Obligations.ReservedWordsAreRefused := by
  intro s data rest h
  have hop : (opField (commandWord data)).toNat = data.toNat / 256 % 256 := by
    rw [opField_toNat, commandWord, BitVec.toNat_setWidth]
    omega
  have hmod : (modField (commandWord data)).toNat = data.toNat % 256 := by
    rw [modField_toNat, commandWord, BitVec.toNat_setWidth]
    omega
  have hdecode := exists_decode_ok_iff (commandWord data)
  rw [hop, hmod] at hdecode
  refine ⟨fun hreserved => ?_, hdecode.2⟩
  cases hd : decode (commandWord data) with
  | ok i => exact absurd hreserved (hdecode.1 ⟨i, hd⟩)
  | error e =>
    refine ⟨e, ?_⟩
    rw [step, takeAction_cons _ h, performAction, hostWrite_cmd, runCommand_of_reserved _ hd]

/-! ### The match-and-mask table (R83) -/

/-- The word of every command is one of the row with its mnemonic. -/
theorem row_of_command (i : Instr) :
    ∃ r ∈ commandTable, (encode i &&& r.mask) = r.pattern ∧ r.mnemonic = i.mnemonic := by
  cases i with
  | sysInit allocOk present => revert allocOk present; decide
  | brtHeartbeat alert => revert alert; decide
  | color health => revert health; decide
  | enc char => exact ⟨⟨"ENC", 0x2000#16, 0xFF00#16⟩, by decide, by revert char; decide, rfl⟩
  | fmtInt leadingZero => revert leadingZero; decide
  | fmtFixs dots => revert dots; decide
  | fmtFix2 dots => revert dots; decide
  | fmtTime colon => revert colon; decide
  | busByte byte => exact ⟨⟨"BUS.BYTE", 0x4200#16, 0xFF00#16⟩, by decide, by revert byte; decide, rfl⟩
  | dispBright level => revert level; decide
  | sysTick | brtClassic | brtFlow | rot | fmtText | fmtSmall | busStart | busStop | dispWrite => decide

/-- Two rows of one word agree in the bits that both of them fix. -/
theorem patterns_agree {p p' m m' : BitVec 16} (h : (w &&& m) = p) (h' : (w &&& m') = p') :
    (p &&& m') = (p' &&& m) := by
  rw [← h, ← h', BitVec.and_assoc, BitVec.and_assoc, BitVec.and_comm m]

/-- Any two rows differ in a bit that both of them fix. -/
theorem rows_disjoint : ∀ r ∈ commandTable, ∀ r' ∈ commandTable,
    (r.pattern &&& r'.mask) = (r'.pattern &&& r.mask) → r = r' := by decide

/-- A selected word is the pattern plus the bits the mask leaves free. -/
theorem toNat_of_selected {n : Nat} {v p m : BitVec n} (h : (v &&& m) = p) :
    v.toNat = p.toNat + (v &&& ~~~m).toNat := by
  have hdisjoint : (v &&& m) &&& (v &&& ~~~m) = 0#n := by
    ext j hj
    cases hbit : m[j] <;> simp [hbit]
  have hsum : (v &&& m) + (v &&& ~~~m) = v := by
    rw [BitVec.add_eq_or_of_and_eq_zero _ _ hdisjoint, ← BitVec.and_or_distrib_left]
    simp
  rw [← h, ← BitVec.toNat_add_of_and_eq_zero hdisjoint, hsum]

/-- What a row says of the words it selects, as numbers: the pattern and above it at most the free bits, of which
the two lowest count for themselves. -/
theorem selected_bounds {r : TableRow} (h : (w &&& r.mask) = r.pattern) :
    ∃ x, w.toNat = r.pattern.toNat + x ∧ x ≤ (~~~r.mask).toNat ∧ x % 4 ≤ (~~~r.mask).toNat % 4 := by
  refine ⟨_, toNat_of_selected h, ?_, ?_⟩
  · rw [BitVec.toNat_and]
    exact Nat.and_le_right
  · rw [BitVec.toNat_and, Nat.and_mod_two_pow (n := 2)]
    exact Nat.and_le_right

/-- A word some row selects is not reserved, but for the alert 3 of BRT.HEARTBEAT (R89). -/
theorem not_reservedWord_of_row {r : TableRow} (hr : r ∈ commandTable) (h : (w &&& r.mask) = r.pattern)
    (hw : w ≠ 0x100E#16) : ¬ ReservedWord (opField w).toNat (modField w).toNat := by
  obtain ⟨x, hsum, hfree, hlow⟩ := selected_bounds h
  rw [ne_eq, ← BitVec.toNat_inj] at hw
  rw [opField_toNat, modField_toNat]
  simp only [commandTable, List.cons_append, List.nil_append, List.mem_cons, List.not_mem_nil, or_false] at hr
  casesm* _ ∨ _
  all_goals
    subst hr
    simp only [BitVec.reduceNot, BitVec.reduceToNat] at hsum hfree hlow hw
    omega

/-- Settles O3: an accepted word is its command's own, which its row selects; a selected word is not reserved; and
two rows that select one word agree where both fix a bit, which no two rows do. -/
theorem decoderAcceptsExactlyTheTable : Obligations.DecoderAcceptsExactlyTheTable := by
  have selected {w : BitVec 16} {i : Instr} (h : decode w = .ok i) :
      ∃ r ∈ commandTable, (w &&& r.mask) = r.pattern ∧ r.mnemonic = i.mnemonic := by
    rw [← (encodeOfDecodedIsTheWord w i h).1]
    exact row_of_command i
  refine ⟨fun w => ⟨?_, ?_⟩, fun w i => selected, ?_⟩
  · rintro ⟨i, h⟩
    obtain ⟨r, hr, hw, -⟩ := selected h
    refine ⟨⟨r, hr, hw⟩, ?_⟩
    rintro rfl
    have hreserved : decode 0x100E#16 = .error .reservedAlert := by decide
    rw [hreserved] at h
    cases h
  · rintro ⟨⟨r, hr, h⟩, hw⟩
    exact (exists_decode_ok_iff w).2 (not_reservedWord_of_row hr h hw)
  · intro w r hr r' hr' h h'
    exact rows_disjoint r hr r' hr' (patterns_agree h h')

/-- Settles O4: each word is evaluated by the decoder. -/
theorem sampleWordsDecode : Obligations.SampleWordsDecode := by
  unfold Obligations.SampleWordsDecode
  decide

/-! ### The symbols of a shown frame (R94, R228) -/

/-- A command that shows a frame leaves the bus closed and the pins idle (R182, R226). -/
theorem exec_leaves_idle (hready : DisplayReady s) (hi : ShowsFrame i s) (h : exec i s = .next t) :
    t.busOpen = false ∧ t.pins = .idle := by
  rcases hi with hwrites | ⟨rfl, hrefresh⟩
  · obtain ⟨t', f, ht', hshown⟩ := exec_of_writesFrame hready hwrites
    obtain rfl : t' = t := by simpa [ht'] using h
    rw [hshown.only]
    exact ⟨rfl, rfl⟩
  · obtain ⟨-, -, w, -, rfl⟩ := execSysTick_next h
    rw [tick_due w ⟨hready.2.1, hrefresh.1⟩]
    exact ⟨rfl, rfl⟩

/-- Settles O43: the trace spells `frameSymbols` of FRAME, which is the list written out. -/
theorem shownFramesSpellTheirSymbols : Obligations.ShownFramesSpellTheirSymbols := by
  intro s i hready hidle hi
  obtain ⟨t, ht, htraced⟩ := exec_spells_frame hready hidle hi
  obtain ⟨hclosed, hpins⟩ := exec_leaves_idle hready hi ht
  have hsymbols : symbols t.trace = symbols s.trace ++ frameSymbols s.cfg s.bright (unpack4 t.frame) :=
    congrArg Decoder.out htraced
  refine ⟨t, ht, hclosed, hpins, congrArg Decoder.pins htraced, fun hsplit => ?_, fun hsplit => ?_⟩
  all_goals simp [hsymbols, frameSymbols, hsplit, controlByte_eq, cmdAddr0]

end Sys2Proof.Proofs
end

section
/-! PROOF. The brightness engine (spec/40_brightness.md): what the BRT commands are, one period further, the
triangle of BRT.CLASSIC and BRT.FLOW, and the curve of BRT.HEARTBEAT. -/

namespace Sys2Proof.Proofs

open Sys2Proof Sys2Proof.Machine Sys2Proof.Safety

variable {s : State} {i : Instr} {maxb p m : Nat}

/-! ### The BRT commands (R121, R123) -/

/-- Every alert but the reserved one is an alert level (R30). -/
theorem alertLevel_of_ne {alert : BitVec 2} (h : alert ≠ 3#2) : ∃ a, alertLevel alert = some a := by
  have hsome : ∀ alert : BitVec 2, alert ≠ 3#2 → (alertLevel alert).isSome := by decide
  exact Option.isSome_iff_exists.1 (hsome alert h)

/-- BRT.HEARTBEAT of an alert level computes its waveform (R133). -/
theorem exec_brtHeartbeat {alert : BitVec 2} {a : AlertLevel} (ha : alertLevel alert = some a) (s : State) :
    exec (.brtHeartbeat alert) s = computeBrightness (.heartbeat a) s := by
  simp only [exec, execBrtHeartbeat, ha]

/-- A BRT command computes the brightness of a waveform that takes no operand beside A0 but A1; the ill-formed
alert 3 is refused (R89). -/
theorem exec_brt (hi : i = .brtClassic ∨ i = .brtFlow ∨ ∃ a, i = .brtHeartbeat a) :
    (∃ w : Word → Wave, ∀ s, exec i s = computeBrightness (w s.a1) s) ∨
      (i = .brtHeartbeat 3#2 ∧ ∀ s, exec i s = .refused .reservedAlert) := by
  rcases hi with rfl | rfl | ⟨alert, rfl⟩
  · exact .inl ⟨fun _ => .classic, fun _ => rfl⟩
  · exact .inl ⟨fun a1 => .flow (signed32 a1), fun _ => rfl⟩
  · by_cases halert : alert = 3#2
    · subst halert
      exact .inr ⟨rfl, fun _ => rfl⟩
    · obtain ⟨a, ha⟩ := alertLevel_of_ne halert
      exact .inl ⟨fun _ => .heartbeat a, exec_brtHeartbeat ha⟩

/-- The three alerts with their periods (R130). -/
theorem alertLevel_of_mem {alert : BitVec 2} {period : Nat}
    (h : (alert, period) ∈ ([(0#2, 1714), (1#2, 857), (2#2, 600)] : List (BitVec 2 × Nat))) :
    ∃ a, alertLevel alert = some a ∧ hbPeriod a = period := by
  simp only [List.mem_cons, Prod.mk.injEq, List.not_mem_nil, or_false] at h
  rcases h with ⟨rfl, rfl⟩ | ⟨rfl, rfl⟩ | ⟨rfl, rfl⟩
  · exact ⟨.normal, rfl, rfl⟩
  · exact ⟨.warning, rfl, rfl⟩
  · exact ⟨.error, rfl, rfl⟩

theorem computeBrightness_unstarted (w : Wave) (h : s.started = false) :
    computeBrightness w s = .refused .notStarted := requireStarted_of_not h _

theorem strictExec_of_unheld (h : argsHeld i s = false) : strictExec i s = .refused .noValue := by
  simp [strictExec, h]

/-- Settles O23: the byte holds the whole brightness, which no waveform lets exceed MAX_BRIGHTNESS. -/
theorem brightnessNeverExceedsTheMaximum : Obligations.BrightnessNeverExceedsTheMaximum := by
  intro s i hstarted hwf hi
  rcases exec_brt hi with ⟨w, hw⟩ | ⟨rfl, -⟩
  · obtain ⟨t, ht, -, hres, hbrt⟩ := computeBrightness_next (w s.a1) hstarted
    refine ⟨t, (hw s).trans ht, hbrt ▸ brightness_le .., ?_, ?_⟩
    · rw [hres, ← BitVec.setWidth_eq_extractLsb' (by decide), BitVec.setWidth_setWidth_of_le _ (by decide),
        BitVec.setWidth_eq]
    · rw [hres]
      ext j hj
      simp
  · cases hwf

/-- Settles O24: the waveform is chosen by A1 alone, and its brightness reads A0, MAX_BRIGHTNESS and the
configuration. -/
theorem brightnessHasNoMemory : Obligations.BrightnessHasNoMemory := by
  intro s s' i hstarted hstarted' hi ha0 ha1 hmax hcfg
  rcases exec_brt hi with ⟨w, hw⟩ | ⟨-, hrefused⟩
  · simp only [hw, computeBrightness_resOf, hstarted, hstarted', ha0, ha1, hmax, hcfg]
  · rw [hrefused, hrefused]

/-! ### One period further (R126, R129, R134) -/

/-- The period of a waveform, in milliseconds (R124, R130). -/
def wavePeriod : Wave → Nat
  | .classic | .flow _ => triPeriod
  | .heartbeat a => hbPeriod a

theorem brightness_add_wavePeriod (c : Config) (maxb t : Nat) (w : Wave) :
    brightness c maxb (t + wavePeriod w) w = brightness c maxb t w := by
  cases w <;> simp only [brightness, wavePeriod, Nat.add_mod_right]

/-- Where the counter does not wrap, one period more in A0 changes nothing. -/
theorem computeBrightness_periodic (w : Wave) (h : s.a0.toNat + wavePeriod w < 4294967296) :
    resOf (computeBrightness w { s with a0 := s.a0 + BitVec.ofNat 32 (wavePeriod w) }) =
      resOf (computeBrightness w s) := by
  have hsum : (s.a0 + BitVec.ofNat 32 (wavePeriod w)).toNat = s.a0.toNat + wavePeriod w := by
    rw [BitVec.toNat_add, BitVec.toNat_ofNat]
    omega
  simp only [computeBrightness_resOf, hsum, brightness_add_wavePeriod]

/-! ### The triangle (R124) -/

/-- The triangle over 3000 ms with its peak at `m` ms, at phase `p`. -/
def triangleAt (maxb m p : Nat) : Nat :=
  if p < m then maxb * p / m else maxb * (3000 - p) / (3000 - m)

theorem brightness_classic_eq (c : Config) (maxb t : Nat) :
    brightness c maxb t .classic = triangleAt maxb 1500 (t % 3000) := brightness_classic c maxb t

theorem brightness_flow_eq (c : Config) (maxb t : Nat) (pw : Int) :
    brightness c maxb t (.flow pw) = triangleAt maxb (flowMidpointMs c.dischargePositive pw) (t % 3000) :=
  brightness_flow c maxb t pw

theorem triangleAt_zero (maxb : Nat) (hm : 0 < m) : triangleAt maxb m 0 = 0 := by
  simp [triangleAt, hm]

/-- A part of the maximum is the maximum only where it is the whole. -/
theorem scaled_eq_iff {n : Nat} (hmax : 0 < maxb) (hm : 0 < m) (hn : n ≤ m) : maxb * n / m = maxb ↔ n = m := by
  constructor
  · intro h
    by_contra hne
    have : maxb * n / m < maxb := Nat.div_lt_of_lt_mul (by
      rw [Nat.mul_comm m]
      exact Nat.mul_lt_mul_of_pos_left (by omega) hmax)
    omega
  · rintro rfl
    exact Nat.mul_div_cancel _ hm

/-- The triangle reaches the maximum at its peak and nowhere else. -/
theorem triangleAt_eq_max_iff (hmax : 0 < maxb) (hm : 0 < m) (hm' : m < 3000) (hp : p < 3000) :
    triangleAt maxb m p = maxb ↔ p = m := by
  rw [triangleAt]
  split
  · rw [scaled_eq_iff hmax hm (by omega)]
  · rw [scaled_eq_iff hmax (by omega) (by omega)]
    omega

/-- With its peak in the middle the triangle is the same from either end of the period. -/
theorem triangleAt_symmetric (maxb : Nat) (hp : p ≤ 3000) :
    triangleAt maxb 1500 (3000 - p) = triangleAt maxb 1500 p := by
  rcases Nat.lt_trichotomy p 1500 with h | rfl | h
  · rw [triangleAt, triangleAt, if_neg (by omega), if_pos h, Nat.sub_sub_self hp]
  · rfl
  · rw [triangleAt, triangleAt, if_pos (by omega), if_neg (by omega)]

/-- RES holds MAX_BRIGHTNESS where the brightness is the maximum. -/
theorem resOf_eq_max_iff (w : Wave) (h : s.started = true) :
    resOf (computeBrightness w s) = some (s.maxBrightness.setWidth 32) ↔
      brightness s.cfg s.maxBrightness.toNat s.a0.toNat w = s.maxBrightness.toNat := by
  have hle := brightness_le s.cfg s.maxBrightness.toNat s.a0.toNat w
  have hmax := s.maxBrightness.isLt
  rw [computeBrightness_resOf, if_pos h, Option.some_inj, ← BitVec.toNat_inj, BitVec.toNat_ofNat,
    BitVec.toNat_setWidth, Nat.mod_eq_of_lt (by omega), Nat.mod_eq_of_lt (by omega)]

/-! ### BRT.CLASSIC (R125, R126) -/

/-- Settles O17: the brightness of the classic waveform is the triangle. -/
theorem classicIsTheSymmetricTriangle : Obligations.ClassicIsTheSymmetricTriangle := by
  intro s
  refine ⟨fun hstarted => ?_, computeBrightness_unstarted _, fun ha0 => ?_⟩
  · obtain ⟨t, ht, honly, hres, hbrt⟩ := computeBrightness_next .classic hstarted
    exact ⟨t, ht, honly, hres, hbrt.trans (brightness_classic ..)⟩
  · exact strictExec_of_unheld (by simp [argsHeld, readsA0, ha0])

/-- The counter wraps after 2^32 ms, which is 2296 ms past a whole number of periods (R126, R302). -/
theorem wrapped_phase (t : Word) (k : Nat) (hwrap : 4294967296 ≤ t.toNat + k) (h : t.toNat + k < 8589934592) :
    ((t + BitVec.ofNat 32 k).toNat % 3000 + 2296) % 3000 = (t.toNat + k) % 3000 := by
  rw [BitVec.toNat_add, BitVec.toNat_ofNat]
  omega

/-- Settles O18: each law is the triangle's; across the wrap the brightness falls from 170 to 50. -/
theorem classicLaws : Obligations.ClassicLaws := by
  refine ⟨fun s h => computeBrightness_periodic .classic h, ?symmetric, ?peak, wrapped_phase, ?wrap⟩
  case symmetric =>
    intro s x y hx hy
    have hsame : brightness s.cfg s.maxBrightness.toNat x.toNat .classic =
        brightness s.cfg s.maxBrightness.toNat y.toNat .classic := by
      rw [brightness_classic_eq, brightness_classic_eq, hy, triangleAt_symmetric _ (by omega)]
    simp only [exec, execBrtClassic, computeBrightness_resOf, hsame]
  case peak =>
    intro s hstarted hmax
    rw [exec, execBrtClassic, resOf_eq_max_iff _ hstarted, brightness_classic_eq,
      triangleAt_eq_max_iff hmax (by decide) (by decide) (Nat.mod_lt _ (by decide))]
  case wrap =>
    intro s hstarted hmax
    simp [exec, execBrtClassic, computeBrightness_resOf, brightness_classic, hstarted, hmax]

/-! ### BRT.FLOW (R127 to R129) -/

/-- The midpoint by the power in the discharge direction (R127). -/
theorem flowMidpointMs_of {b : Bool} {pw : Int} {m : Nat}
    (h : let d := if b then pw else -pw
      (d > 50 ∧ m = 2850) ∨ (d < -50 ∧ m = 150) ∨ (-50 ≤ d ∧ d ≤ 50 ∧ m = 1500)) :
    flowMidpointMs b pw = m := by
  rw [flowMidpointMs]
  rcases h with ⟨hd, rfl⟩ | ⟨hd, rfl⟩ | ⟨hd, hd', rfl⟩
  · rw [if_pos hd]
  · rw [if_neg (by omega), if_pos hd]
  · rw [if_neg (by omega), if_neg (by omega)]

/-- Settles O19: the brightness of the flow waveform is the triangle with its peak at the midpoint. -/
theorem flowMidpointFollowsThePower : Obligations.FlowMidpointFollowsThePower := by
  intro s
  refine ⟨fun m hstarted hm => ?_, computeBrightness_unstarted _, fun hheld => ?_⟩
  · obtain ⟨t, ht, honly, hres, hbrt⟩ := computeBrightness_next (.flow (signed32 s.a1)) hstarted
    rw [brightness_flow_eq, flowMidpointMs_of hm] at hbrt
    exact ⟨t, ht, honly, hres, hbrt⟩
  · exact strictExec_of_unheld (by rcases hheld with h | h <;> simp [argsHeld, readsA0, readsA1, h])

/-- BRT.FLOW gives the maximum at its midpoint and nowhere else. -/
theorem flow_eq_max_iff (hstarted : s.started = true) (hmax : 1 ≤ s.maxBrightness.toNat)
    (hm : flowMidpointMs s.cfg.dischargePositive s.a1.toInt = m) :
    resOf (exec .brtFlow s) = some (s.maxBrightness.setWidth 32) ↔ s.a0.toNat % 3000 = m := by
  rw [exec, execBrtFlow, resOf_eq_max_iff _ hstarted, brightness_flow_eq, hm,
    triangleAt_eq_max_iff hmax (hm ▸ flowMidpointMs_pos ..) (hm ▸ flowMidpointMs_lt ..)
      (Nat.mod_lt _ (by decide))]

/-- Settles O20: with the midpoint at 1500 ms the triangle is that of BRT.CLASSIC. -/
theorem flowLaws : Obligations.FlowLaws := by
  intro s d
  refine ⟨computeBrightness_periodic (.flow s.a1.toInt), ?discharging, ?charging, ?unshifted, ?zero⟩
  case discharging =>
    exact fun hstarted hmax hd => flow_eq_max_iff hstarted hmax (flowMidpointMs_of (.inl ⟨hd, rfl⟩))
  case charging =>
    exact fun hstarted hmax hd => flow_eq_max_iff hstarted hmax (flowMidpointMs_of (.inr (.inl ⟨hd, rfl⟩)))
  case unshifted =>
    intro hlow hhigh
    have hm : flowMidpointMs s.cfg.dischargePositive s.a1.toInt = 1500 :=
      flowMidpointMs_of (.inr (.inr ⟨hlow, hhigh, rfl⟩))
    simp only [exec, execBrtFlow, execBrtClassic, computeBrightness, brightnessByte, brightness_flow_eq,
      brightness_classic_eq, hm]
  case zero =>
    intro hstarted hphase
    rw [exec, execBrtFlow, computeBrightness_resOf, if_pos hstarted, brightness_flow_eq, hphase,
      triangleAt_zero _ (flowMidpointMs_pos ..)]

/-! ### BRT.HEARTBEAT (R130 to R134) -/

theorem hbPeriod_pos (a : AlertLevel) : 0 < hbPeriod a := by cases a <;> decide

/-- Settles O21: `hbSegment` finds the one segment of the phase, and on it the brightness is the curve. -/
theorem heartbeatIsThePiecewiseCurve : Obligations.HeartbeatIsThePiecewiseCurve := by
  intro s knots y
  refine ⟨?curve, fun alert halert hstarted => ?unstarted, fun alert ha0 => ?unheld, ⟨_, rfl⟩⟩
  case curve =>
    intro alert period hstarted hmem p
    obtain ⟨a, ha, rfl⟩ := alertLevel_of_mem hmem
    have hp : p < hbPeriod a := Nat.mod_lt _ (hbPeriod_pos a)
    refine ⟨⟨hbSegment p (hbPeriod a), hbSegment_spec hp, fun j ⟨hleft, hright⟩ =>
      (hbSegment_unique hleft hright).symm⟩, ?_⟩
    intro j hleft hright n d num
    obtain ⟨t, ht, honly, hres, hbrt⟩ := computeBrightness_next (.heartbeat a) hstarted
    refine ⟨t, (exec_brtHeartbeat ha s).trans ht, honly, hres, ?_⟩
    rw [hbrt]
    exact pwl_eq s.cfg.hb _ hleft hright rfl rfl
  case unstarted =>
    obtain ⟨a, ha⟩ := alertLevel_of_ne halert
    rw [exec_brtHeartbeat ha, computeBrightness_unstarted _ hstarted]
  case unheld => exact strictExec_of_unheld (by simp [argsHeld, readsA0, ha0])

/-- A value interpolated between two that are at most `b` is at most `b`. -/
theorem interpolate_le {y0 y1 b n d : Int} (hn : 0 ≤ n) (hd : n ≤ d) (h0 : y0 ≤ b) (h1 : y1 ≤ b) :
    y0 * d + (y1 - y0) * n ≤ b * d := by
  have hleft : y0 * (d - n) ≤ b * (d - n) := Int.mul_le_mul_of_nonneg_right h0 (by omega)
  have hright : y1 * n ≤ b * n := Int.mul_le_mul_of_nonneg_right h1 hn
  linarith

/-- A value interpolated between two that are at least `b` is at least `b`. -/
theorem le_interpolate {y0 y1 b n d : Int} (hn : 0 ≤ n) (hd : n ≤ d) (h0 : b ≤ y0) (h1 : b ≤ y1) :
    b * d ≤ y0 * d + (y1 - y0) * n := by
  have hneg := interpolate_le hn hd (neg_le_neg h0) (neg_le_neg h1)
  linarith

/-- A quotient of the curve is at most that of the level its numerator does not exceed. -/
theorem scaled_ediv_le {k num b den d : Int} (hk : 0 ≤ k) (hden : 0 < den) (hd : 0 < d) (h : num ≤ b * d) :
    k * num / (den * d) ≤ k * b / den := by
  rw [← Int.mul_ediv_mul_of_pos_left (k * b) den hd, mul_assoc k b]
  exact Int.ediv_le_ediv (mul_pos hden hd) (mul_le_mul_of_nonneg_left h hk)

theorem le_scaled_ediv {k num b den d : Int} (hk : 0 ≤ k) (hden : 0 < den) (hd : 0 < d) (h : b * d ≤ num) :
    k * b / den ≤ k * num / (den * d) := by
  rw [← Int.mul_ediv_mul_of_pos_left (k * b) den hd, mul_assoc k b]
  exact Int.ediv_le_ediv (mul_pos hden hd) (mul_le_mul_of_nonneg_left h hk)

/-- The curve lies between the least and the greatest level (R134 law 3): on a segment it interpolates between
two levels, and clamping to 0 and MAXB keeps it above a fraction of MAXB and below a value that is not negative. -/
theorem pwl_between (curve : HbCurve) (maxb : Nat) {T lo hi : Nat} (hp : p < T) (hden : 0 < curve.den)
    (hlo : ∀ i : Fin 8, lo ≤ curve.levels[i]) (hhi : ∀ i : Fin 8, curve.levels[i] ≤ hi)
    (hfraction : lo ≤ curve.den) :
    maxb * lo / curve.den ≤ pwl curve maxb p T ∧ pwl curve maxb p T ≤ maxb * hi / curve.den := by
  obtain ⟨i, hleft, hright⟩ := hbSegment_exists hp
  have hcurve := pwl_eq curve maxb hleft hright rfl rfl
  generalize hn : (100 * p - hbKnots[i.val] * T : Int) = n at hcurve
  generalize hd : ((hbKnots[i.val + 1] - hbKnots[i.val]) * T : Int) = d at hcurve
  have hn0 : 0 ≤ n := by
    rw [← hn]
    exact sub_nonneg.2 (by exact_mod_cast hleft)
  have hnd : n < d := by
    rw [← hn, ← hd, sub_mul]
    exact sub_lt_sub_right (by exact_mod_cast hright) _
  have hlow := le_scaled_ediv (Int.natCast_nonneg maxb) (Int.natCast_pos.2 hden) (hn0.trans_lt hnd)
    (le_interpolate hn0 hnd.le (Int.ofNat_le.2 (hlo ⟨i, by omega⟩)) (Int.ofNat_le.2 (hlo ⟨i + 1, by omega⟩)))
  have hhigh := scaled_ediv_le (Int.natCast_nonneg maxb) (Int.natCast_pos.2 hden) (hn0.trans_lt hnd)
    (interpolate_le hn0 hnd.le (Int.ofNat_le.2 (hhi ⟨i, by omega⟩)) (Int.ofNat_le.2 (hhi ⟨i + 1, by omega⟩)))
  have hmax : maxb * lo / curve.den ≤ maxb := scaled_le maxb hfraction
  rw [← Int.ofNat_le, ← Int.ofNat_le (m := pwl curve maxb p T), hcurve]
  push_cast
  exact ⟨le_max_of_le_right (le_min (by exact_mod_cast hmax) hlow),
    max_le (by positivity) ((min_le_right _ _).trans hhigh)⟩

/-- The curve depends on the phase as a part of the period only (R134 law 4). -/
theorem pwl_scale (curve : HbCurve) (maxb : Nat) {T k : Nat} (hp : p < T) (hk : 0 < k) :
    pwl curve maxb (p * k) (T * k) = pwl curve maxb p T := by
  obtain ⟨i, hleft, hright⟩ := hbSegment_exists hp
  have hleft' : hbKnots[i.val] * (T * k) ≤ 100 * (p * k) := by
    rw [← mul_assoc, ← mul_assoc]
    exact Nat.mul_le_mul_right k hleft
  have hright' : 100 * (p * k) < hbKnots[i.val + 1] * (T * k) := by
    rw [← mul_assoc, ← mul_assoc]
    exact Nat.mul_lt_mul_of_pos_right hright hk
  rw [← Int.natCast_inj, pwl_eq curve maxb hleft' hright' rfl rfl, pwl_eq curve maxb hleft hright rfl rfl]
  congr 2
  refine Eq.trans ?_ (Int.mul_ediv_mul_of_pos_left _ _ (Int.natCast_pos.2 hk))
  congr 1 <;> push_cast <;> ring

/-- The same part of two periods has the same brightness. -/
theorem brightness_heartbeat_congr (c : Config) (maxb : Nat) {a b : AlertLevel} {x y : Nat}
    (h : x % hbPeriod a * hbPeriod b = y % hbPeriod b * hbPeriod a) :
    brightness c maxb x (.heartbeat a) = brightness c maxb y (.heartbeat b) := by
  have ha := hbPeriod_pos a
  have hb := hbPeriod_pos b
  calc pwl c.hb maxb (x % hbPeriod a) (hbPeriod a)
      = pwl c.hb maxb (x % hbPeriod a * hbPeriod b) (hbPeriod a * hbPeriod b) :=
        (pwl_scale c.hb maxb (Nat.mod_lt _ ha) hb).symm
    _ = pwl c.hb maxb (y % hbPeriod b * hbPeriod a) (hbPeriod b * hbPeriod a) := by
        rw [h, Nat.mul_comm (hbPeriod a)]
    _ = pwl c.hb maxb (y % hbPeriod b) (hbPeriod b) := pwl_scale c.hb maxb (Nat.mod_lt _ hb) ha

/-- Settles O22: the curve is read at the phase as a part of the period, and interpolates between levels. -/
theorem heartbeatLaws : Obligations.HeartbeatLaws := by
  intro s hvalid
  refine ⟨fun alert period hmem => ?_, ?alerts⟩
  · obtain ⟨a, ha, rfl⟩ := alertLevel_of_mem hmem
    simp only [exec_brtHeartbeat ha]
    refine ⟨computeBrightness_periodic (.heartbeat a), fun lo hi hstarted hlo hhi => ?_⟩
    obtain ⟨t, ht, -, hres, hbrt⟩ := computeBrightness_next (.heartbeat a) hstarted
    refine ⟨t, ht, ?_⟩
    rw [hres, BitVec.toNat_setWidth_of_le (by decide), hbrt]
    exact pwl_between s.cfg.hb _ (Nat.mod_lt _ (hbPeriod_pos a)) hvalid.den_pos hlo hhi
      ((hlo 0).trans (hvalid.fractions 0))
  case alerts =>
    intro a b ta tb x y ha hb hphase
    obtain ⟨levelA, hlevelA, rfl⟩ := alertLevel_of_mem ha
    obtain ⟨levelB, hlevelB, rfl⟩ := alertLevel_of_mem hb
    simp only [exec_brtHeartbeat hlevelA, exec_brtHeartbeat hlevelB, computeBrightness_resOf,
      brightness_heartbeat_congr s.cfg _ hphase]

end Sys2Proof.Proofs
end

section
/-! PROOF. The colour selector and the display rotator (spec/41_color_rotator.md): what COLOR and ROT leave, the
sixteen words of ROT, and the reference plan of the rotation. -/

namespace Sys2Proof.Proofs

open Sys2Proof Sys2Proof.Machine Sys2Proof.Safety

variable {s : State}

theorem onlyRes_setRes (s : State) (w : Word) : OnlyRes s (s.setRes w) := rfl

/-! ### COLOR (R150) -/

theorem exec_color_of_started (h : s.started = true) (health : BitVec 2) :
    exec (.color health) s =
      .next (s.setRes (selectColor s.maxBrightness (healthStatus health) (u8 s.a0)).pack) :=
  requireStarted_of_started h _

/-- Settles O25: RES packs the triple that `selectColor` gives for each of the four health values. -/
theorem colorPicksTheTriple : Obligations.ColorPicksTheTriple := by
  intro s h b
  refine ⟨fun hstarted => ⟨_, exec_color_of_started hstarted h, onlyRes_setRes .., ?ok, ?warning, ?error,
    ?updating⟩, fun hstarted => requireStarted_of_not hstarted _, fun ha0 => ?unheld⟩
  case unheld => exact strictExec_of_unheld (by simp [argsHeld, readsA0, ha0])
  all_goals
    rintro rfl
    rw [State.setRes_res, Rgb.pack_toNat]
    simp [healthStatus, selectColor, u8, b]

/-! ### ROT (R155, R156, R159) -/

theorem exec_rot (s : State) : exec .rot s = .next (s.setRes (slotWord (s.a0.toNat % 16))) := rfl

/-- The RES column of the table of R156, by slot. -/
def rotTable : List Word :=
  [0x00#32, 0x01#32, 0x12#32, 0x13#32, 0x24#32, 0x25#32, 0x36#32, 0x37#32,
    0x48#32, 0x49#32, 0x5A#32, 0x5B#32, 0x6C#32, 0x6D#32, 0x7E#32, 0x7F#32]

theorem slotWord_toNat : ∀ slot < 16, (slotWord slot).toNat = slot + slot / 2 % 2 * 16 + slot / 4 * 32 := by
  decide

theorem rotTable_getElem? : ∀ slot < 16, rotTable[slot]? = some (slotWord slot) := by decide

/-- Settles O26: RES is the word of the slot, whose fields and whose row in the table are read off it. -/
theorem rotFollowsTheTable : Obligations.RotFollowsTheTable := by
  intro s slot
  have hslot : slot < 16 := Nat.mod_lt _ (by decide)
  refine ⟨⟨_, exec_rot s, onlyRes_setRes .., slotWord_toNat slot hslot, (rotTable_getElem? slot hslot).symm⟩,
    fun ha0 => ?_⟩
  exact strictExec_of_unheld (by simp [argsHeld, readsA0, ha0])

/-- 16 divides 2^32, so the wrap of A0 keeps the slot (R155). -/
theorem slot_add_period (a0 : Word) : (a0 + 16#32).toNat % 16 = a0.toNat % 16 := by
  rw [BitVec.toNat_add, BitVec.toNat_ofNat]
  omega

/-- Settles O27: RES depends on the slot alone, and ROT leaves A0, from which the slot is taken. -/
theorem rotLaws : Obligations.RotLaws := by
  intro s
  refine ⟨?idempotent, ?periodic, _, rfl, ?mem⟩
  case idempotent =>
    intro t u ht hu
    rw [exec_rot] at ht hu
    cases ht
    cases hu
    exact ⟨rfl, onlyRes_setRes ..⟩
  case periodic =>
    rw [exec_rot, exec_rot]
    simp only [resOf, State.setRes_res, slot_add_period]
  case mem => exact List.mem_of_getElem? (rotTable_getElem? _ (Nat.mod_lt _ (by decide)))

/-! ### The reference plan (R158) -/

/-- The operands of the reference labels are their texts, packed (R86, R158). -/
theorem text4_labels :
    text4 "SOC" = 0x00434F53#32 ∧ text4 "VOLT" = 0x544C4F56#32 ∧ text4 "CURR" = 0x52525543#32 ∧
      text4 "CAP" = 0x00504143#32 := by decide

/-- Settles O52: each of the eight rows of the table, filled in with the telemetry. -/
theorem referencePlanShowsLabelsAndValues : Obligations.ReferencePlanShowsLabelsAndValues := by
  intro tel
  obtain ⟨hsoc, hvolt, hcurr, hcap⟩ := text4_labels
  rw [hsoc, hvolt, hcurr, hcap]
  exact ⟨⟨rfl, rfl, rfl, rfl⟩, rfl, rfl, rfl, rfl⟩

end Sys2Proof.Proofs
end

section
/-! PROOF. The segment encoder (spec/42_segment_encoder.md): SEG over each range of character codes, and the
word ENC leaves in RES. -/

namespace Sys2Proof.Proofs

open Sys2Proof Sys2Proof.Machine Sys2Proof.Safety

variable {c : Byte}

/-- A code of a lower-case letter, which the fold moves (R166). -/
def IsLower (c : Byte) : Prop := 0x61 ≤ c.toNat ∧ c.toNat ≤ 0x7A

/-! ### The fold (R166) -/

theorem foldCase_of_lower (h : IsLower c) : foldCase c = c - 0x20#8 := if_pos h

theorem foldCase_of_not_lower (h : ¬ IsLower c) : foldCase c = c := if_neg h

/-- Subtracting 0x20 takes no borrow on a lower-case letter. -/
theorem toNat_sub_of_lower (h : IsLower c) : (c - 0x20#8).toNat = c.toNat - 0x20 := by
  obtain ⟨hlo, -⟩ := h
  exact BitVec.toNat_sub_of_le (show 0x20#8 ≤ c from BitVec.le_def.mpr (Nat.le_trans (by decide) hlo))

theorem not_lower_sub (h : IsLower c) : ¬ IsLower (c - 0x20#8) := by
  rw [IsLower, toNat_sub_of_lower h]
  obtain ⟨-, hhi⟩ := h
  omega

/-! ### SEG by range (R167, R168) -/

theorem seg_of_not_lower (t : SegTable) (h : ¬ IsLower c) : seg t c = (segEntry t c).getD 0 := by
  rw [seg, foldCase_of_not_lower h]

/-- Case does not matter (R172). -/
theorem seg_of_lower (t : SegTable) (h : IsLower c) : seg t c = seg t (c - 0x20#8) := by
  rw [seg, foldCase_of_lower h, seg_of_not_lower t (not_lower_sub h)]

theorem seg_digit (t : SegTable) (d : Fin 10) (h : c.toNat = 0x30 + d.val) : seg t c = t.digits[d] := by
  rw [seg_of_not_lower t (by rw [IsLower]; omega), segEntry, dif_pos (by omega)]
  simp [h]

theorem seg_upper (t : SegTable) (k : Fin 26) (h : c.toNat = 0x41 + k.val) : seg t c = t.letters[k] := by
  rw [seg_of_not_lower t (by rw [IsLower]; omega), segEntry, dif_neg (by omega), dif_pos (by omega)]
  simp [h]

theorem seg_letter (t : SegTable) (k : Fin 26) (h : c.toNat = 0x41 + k.val ∨ c.toNat = 0x61 + k.val) :
    seg t c = t.letters[k] := by
  obtain hupper | hlower := h
  · exact seg_upper t k hupper
  · have hc : IsLower c := by rw [IsLower]; omega
    rw [seg_of_lower t hc]
    exact seg_upper t k (by rw [toNat_sub_of_lower hc]; omega)

theorem seg_hyphen (t : SegTable) : seg t 0x2D#8 = t.hyphen := rfl

theorem seg_underscore (t : SegTable) : seg t 0x5F#8 = t.underscore := rfl

theorem seg_asterisk (t : SegTable) : seg t 0x2A#8 = t.asterisk := rfl

theorem seg_space (t : SegTable) : seg t 0x20#8 = t.space := rfl

/-- A code that is none of the 66 mapped ones is blank (R168). -/
theorem seg_unmapped (t : SegTable) (hmarks : c.toNat ∉ [0x20, 0x2A, 0x2D, 0x5F])
    (hdigit : ¬ (0x30 ≤ c.toNat ∧ c.toNat ≤ 0x39)) (hupper : ¬ (0x41 ≤ c.toNat ∧ c.toNat ≤ 0x5A))
    (hlower : ¬ IsLower c) : seg t c = 0 := by
  have hnone : segEntry t c = none := by
    simp only [List.mem_cons, List.not_mem_nil, or_false, not_or] at hmarks
    obtain ⟨hspace, hasterisk, hhyphen, hunderscore⟩ := hmarks
    rw [segEntry, dif_neg hdigit, dif_neg hupper, if_neg hhyphen, if_neg hunderscore, if_neg hasterisk,
      if_neg hspace]
  rw [seg_of_not_lower t hlower, hnone, Option.getD_none]

/-! ### ENC (R165, R172) -/

theorem exec_enc (c : Byte) (s : State) :
    exec (.enc c) s = .next (s.setRes ((seg s.cfg.seg c).setWidth 32)) := rfl

theorem resOf_enc (c : Byte) (s : State) : resOf (exec (.enc c) s) = some ((seg s.cfg.seg c).setWidth 32) := rfl

/-- The frame byte of a glyph, as a word, is the glyph as a word: both pad with zeros. -/
theorem glyphByte_setWidth (t : SegTable) (c : Byte) :
    (glyphByte t c).setWidth 32 = (seg t c).setWidth 32 :=
  BitVec.setWidth_setWidth (by decide)

/-- Settles O28: RES is the glyph of SEG, read off range by range. -/
theorem encLooksUpTheFoldedCharacter : Obligations.EncLooksUpTheFoldedCharacter := by
  intro s c tab
  refine ⟨_, exec_enc c s, onlyRes_setRes .., fun d hd => ?digit, fun k hk => ?letter, ?hyphen, ?underscore,
    ?asterisk, ?space, fun hmarks hdigit hupper hlower => ?unmapped⟩
  case digit => rw [State.setRes_res, seg_digit _ d hd]
  case letter => rw [State.setRes_res, seg_letter _ k hk]
  case hyphen => rintro rfl; rw [State.setRes_res, seg_hyphen]
  case underscore => rintro rfl; rw [State.setRes_res, seg_underscore]
  case asterisk => rintro rfl; rw [State.setRes_res, seg_asterisk]
  case space => rintro rfl; rw [State.setRes_res, seg_space]
  case unmapped => rw [State.setRes_res, seg_unmapped _ hmarks hdigit hupper hlower]; rfl

/-- Settles O29: RES is the formatter's byte; the laws are those of SEG, and only the space needs `Valid`. -/
theorem encoderLaws : Obligations.EncoderLaws := by
  intro s c
  have hbyte : resOf (exec (.enc c) s) = some ((glyphByte s.cfg.seg c).setWidth 32) := by
    rw [resOf_enc, glyphByte_setWidth]
  refine ⟨hbyte, fun hvalid => ⟨fun hlo hhi => ?fold, ⟨_, hbyte, ?bit7⟩, ?space,
    fun hmarks hdigit hupper hlower => ?unmapped⟩⟩
  case fold => rw [resOf_enc, resOf_enc, seg_of_lower _ ⟨hlo, hhi⟩]
  case bit7 => rw [BitVec.getLsbD_setWidth, glyphByte_getLsbD_seven, Bool.and_false]
  case space => rw [resOf_enc, seg_space, hvalid.space_blank]; rfl
  case unmapped => rw [resOf_enc, seg_unmapped _ hmarks hdigit hupper hlower]; rfl

end Sys2Proof.Proofs
end

section
/-! PROOF. The display formatter (spec/43_formatter.md): what every FMT command does, the frame of each as the
spec writes it out, and the frames without a decimal point. -/

namespace Sys2Proof.Proofs

open Sys2Proof Sys2Proof.Machine Sys2Proof.Safety

variable {s t : State} {i : Instr} {c : FmtCmd Word}

/-! ### What every FMT command does (R182) -/

/-- The request each FMT command makes of the formatter, with the operands it takes from A0 and A1 (R81). -/
inductive Formats (s : State) : Instr → FmtCmd Word → Prop where
  | text : Formats s .fmtText (.text s.a0)
  | int (leadingZero : Bool) : Formats s (.fmtInt leadingZero) (.int leadingZero s.a0)
  | small : Formats s .fmtSmall (.small s.a0 s.a1)
  | fixs (dots : BitVec 4) : Formats s (.fmtFixs dots) (.fixs dots s.a0 s.a1)
  | fix2 (dots : BitVec 4) : Formats s (.fmtFix2 dots) (.fix2 dots s.a0)
  | time (colon : Bool) : Formats s (.fmtTime colon) (.time colon s.a0 s.a1)

theorem exec_of_formats (h : Formats s i c) : exec i s = whenDisplayIdle s (.next (runFormat c s)) := by
  cases h <;> rfl

theorem shows_of_formats (h : Formats s i c) (ready : DisplayReady s) :
    ∃ t, exec i s = .next t ∧ FrameShown s t (formatFrame s.cfg.seg c) :=
  ⟨_, (exec_of_formats h).trans (whenDisplayIdle_of_ready ready _), frameShown_runFormat c s⟩

/-- An FMT command that answers a next state has shown its frame. -/
theorem frameShown_of_formats (h : Formats s i c) (ht : exec i s = .next t) :
    FrameShown s t (formatFrame s.cfg.seg c) := by
  obtain ⟨-, hnext⟩ := whenDisplayIdle_next (exec_of_formats h ▸ ht)
  cases hnext
  exact frameShown_runFormat c s

/-- Without a started block, a display and a closed bus nothing is shown (R276 items 3 to 5). -/
theorem whenDisplayIdle_refused (h : s.started = false ∨ s.present = false ∨ s.busOpen = true) (t : State) :
    ∃ r, whenDisplayIdle s (.next t) = .refused r := by
  cases hrun : whenDisplayIdle s (.next t) with
  | refused r => exact ⟨r, rfl⟩
  | fault f => cases f
  | next u =>
    obtain ⟨⟨hstarted, hpresent, hclosed⟩, -⟩ := whenDisplayIdle_next hrun
    simp [hstarted, hpresent, hclosed] at h

theorem refused_of_formats (h : Formats s i c)
    (hnot : s.started = false ∨ s.present = false ∨ s.busOpen = true) : ∃ r, exec i s = .refused r := by
  rw [exec_of_formats h]
  exact whenDisplayIdle_refused hnot _

theorem strictExec_of_noA0 (hi : A0Column i) (h : s.held.a0 = false) : strictExec i s = .refused .noValue :=
  strictExec_of_unheld ((argsHeld_eq_false_iff i s).2 (.inl ⟨hi, h⟩))

theorem strictExec_of_noA1 (hi : A1Column i) (h : s.held.a1 = false) : strictExec i s = .refused .noValue :=
  strictExec_of_unheld ((argsHeld_eq_false_iff i s).2 (.inr ⟨hi, h⟩))

theorem strictExec_of_noArg (h0 : A0Column i) (h1 : A1Column i) (h : s.held.a0 = false ∨ s.held.a1 = false) :
    strictExec i s = .refused .noValue :=
  h.elim (strictExec_of_noA0 h0) (strictExec_of_noA1 h1)

/-! ### FMT.TEXT (R185) -/

theorem textFrame_eq (tab : SegTable) (a0 : Word) :
    textFrame tab a0 =
      ⟨glyphByte tab (BitVec.ofNat 8 (a0.toNat % 256)), glyphByte tab (BitVec.ofNat 8 (a0.toNat / 256 % 256)),
        glyphByte tab (BitVec.ofNat 8 (a0.toNat / 65536 % 256)),
        glyphByte tab (BitVec.ofNat 8 (a0.toNat / 16777216))⟩ := by
  have htop : a0.toNat / 16777216 < 256 := by have := a0.isLt; omega
  simp only [textFrame, unpack4, extractByte_eq, Nat.reducePow, Nat.div_one, Nat.mod_eq_of_lt htop]

/-- Settles O30: the codes of the characters are the bytes of A0. -/
theorem fmtTextShowsFourGlyphs : Obligations.FmtTextShowsFourGlyphs := by
  intro s g
  exact ⟨fun ready => textFrame_eq _ _ ▸ shows_of_formats .text ready, refused_of_formats .text,
    strictExec_of_noA0 .fmtText⟩

/-! ### FMT.INT (R188, R189) -/

section
variable (leadingZero : Bool) (w : Nat)

/-- Position 0 shows from 1000 on. -/
theorem shown_thousands_iff : (leadingZero || thousands w != 0) = true ↔ leadingZero = true ∨ 1000 ≤ w := by
  rw [Bool.or_eq_true, bne_iff_ne, thousands]
  exact or_congr_right (by omega)

/-- Position 1 shows from 100 on: 1000 and above shows it through position 0. -/
theorem shown_hundreds_iff :
    ((leadingZero || thousands w != 0) || hundreds w != 0) = true ↔ leadingZero = true ∨ 100 ≤ w := by
  rw [Bool.or_eq_true, shown_thousands_iff, bne_iff_ne, hundreds, or_assoc]
  exact or_congr_right (by omega)

/-- Position 2 shows from 10 on. -/
theorem shown_tens_iff :
    (((leadingZero || thousands w != 0) || hundreds w != 0) || tens w != 0) = true ↔
      leadingZero = true ∨ 10 ≤ w := by
  rw [Bool.or_eq_true, shown_hundreds_iff, bne_iff_ne, tens, or_assoc]
  exact or_congr_right (by omega)

end

/-- The digits that show, by the size of the value (R189). -/
theorem intFrame_eq (tab : SegTable) (leadingZero : Bool) (a0 : Word) :
    intFrame tab leadingZero a0 =
      ⟨if leadingZero = true ∨ 1000 ≤ intValue a0 then dig tab (thousands (intValue a0)) else blankByte,
        if leadingZero = true ∨ 100 ≤ intValue a0 then dig tab (hundreds (intValue a0)) else blankByte,
        if leadingZero = true ∨ 10 ≤ intValue a0 then dig tab (tens (intValue a0)) else blankByte,
        dig tab (units (intValue a0))⟩ := by
  simp only [intFrame, shown_thousands_iff, shown_hundreds_iff, shown_tens_iff]

/-- Settles O31: the digits of the clamped value, each shown from its own power of ten on. -/
theorem fmtIntSuppressesLeadingZeros : Obligations.FmtIntSuppressesLeadingZeros := by
  intro s leadingZero w d
  refine ⟨fun ready => ?_, refused_of_formats (.int leadingZero), strictExec_of_noA0 (.fmtInt leadingZero)⟩
  have hshown := shows_of_formats (.int leadingZero) ready
  rw [formatFrame, intFrame_eq, intValue_eq] at hshown
  exact hshown

/-! ### FMT.SMALL (R192) -/

theorem suffix0_eq (w : Word) : suffix0 w = BitVec.ofNat 8 (w.toNat % 256) := by
  rw [suffix0, extractByte_eq, pow_zero, Nat.div_one]

theorem suffix1_eq (w : Word) : suffix1 w = BitVec.ofNat 8 (w.toNat / 256 % 256) := extractByte_eq w 8

section
variable (tab : SegTable) {a0 : Word} (a1 : Word)

theorem smallFrame_one_digit (h : a0.toNat ≤ 9) :
    smallFrame tab a0 a1 =
      ⟨glyphByte tab 0x20#8, dig tab a0.toNat, glyphByte tab (suffix0 a1), glyphByte tab (suffix1 a1)⟩ := by
  rw [smallFrame, if_pos (show a0.toNat ≤ 99 by omega), if_neg (show ¬ 10 ≤ a0.toNat by omega),
    Nat.mod_eq_of_lt (show a0.toNat < 10 by omega)]

theorem smallFrame_two_digits (hlo : 10 ≤ a0.toNat) (hhi : a0.toNat ≤ 99) :
    smallFrame tab a0 a1 =
      ⟨dig tab (a0.toNat / 10), dig tab (a0.toNat % 10), glyphByte tab (suffix0 a1),
        glyphByte tab (suffix1 a1)⟩ := by
  rw [smallFrame, if_pos hhi, if_pos hlo]

theorem smallFrame_sentinel (h : 100 ≤ a0.toNat) :
    smallFrame tab a0 a1 =
      ⟨starByte tab, starByte tab, glyphByte tab (suffix0 a1), glyphByte tab (suffix1 a1)⟩ := by
  rw [smallFrame, if_neg (show ¬ a0.toNat ≤ 99 by omega)]

end

/-- Settles O32: one digit, two digits or the sentinel, by the size of A0. -/
theorem fmtSmallShowsTwoDigitsOrTheSentinel : Obligations.FmtSmallShowsTwoDigitsOrTheSentinel := by
  intro s v g s0 s1
  refine ⟨fun ready => ?_, refused_of_formats .small, strictExec_of_noArg .fmtSmall .fmtSmall⟩
  obtain ⟨t, ht, hshown⟩ := shows_of_formats .small ready
  rw [formatFrame] at hshown
  have hs0 : glyphByte s.cfg.seg (suffix0 s.a1) = s0 := congrArg _ (suffix0_eq _)
  have hs1 : glyphByte s.cfg.seg (suffix1 s.a1) = s1 := congrArg _ (suffix1_eq _)
  rw [← hs0, ← hs1]
  exact ⟨t, _, ht, hshown, smallFrame_one_digit _ _, smallFrame_two_digits _ _, smallFrame_sentinel _ _⟩

/-! ### FMT.FIXS (R195) -/

section
variable (tab : SegTable) (dots : BitVec 4) {a0 : Word} (a1 : Word)

theorem fixsFrame_magnitude (h : fixsMagnitude a0 ≤ 999) :
    fixsFrame tab dots a0 a1 =
      applyDots dots ⟨dig tab (fixsMagnitude a0 / 100), dig tab (fixsMagnitude a0 / 10 % 10),
        dig tab (fixsMagnitude a0 % 10), glyphByte tab (suffix0 a1)⟩ := by
  rw [fixsFrame, if_neg (by omega)]

theorem fixsFrame_sentinel (h : 1000 ≤ fixsMagnitude a0) :
    fixsFrame tab dots a0 a1 =
      ⟨starByte tab, starByte tab, glyphByte tab (suffix0 a1), glyphByte tab (suffix1 a1)⟩ := by
  rw [fixsFrame, if_pos (by omega)]

end

/-- Settles O33: the magnitude with its dots, or the sentinel without, by the size of the magnitude. -/
theorem fmtFixsShowsMagnitudeOrTheSentinel : Obligations.FmtFixsShowsMagnitudeOrTheSentinel := by
  intro s dots m g dot s0 s1
  refine ⟨fun ready => ?_, refused_of_formats (.fixs dots),
    strictExec_of_noArg (.fmtFixs dots) (.fmtFixs dots)⟩
  obtain ⟨t, ht, hshown⟩ := shows_of_formats (.fixs dots) ready
  rw [formatFrame] at hshown
  have hs0 : glyphByte s.cfg.seg (suffix0 s.a1) = s0 := congrArg _ (suffix0_eq _)
  have hs1 : glyphByte s.cfg.seg (suffix1 s.a1) = s1 := congrArg _ (suffix1_eq _)
  rw [← hs0, ← hs1]
  exact ⟨t, _, ht, hshown, fixsFrame_magnitude _ _ _, fixsFrame_sentinel _ _ _⟩

/-! ### FMT.FIX2 and FMT.TIME (R199, R202) -/

/-- Settles O34: the digits are those of the clamped value; `applyDots` is the dots, position by position. -/
theorem fmtFix2ShowsTwoDecimals : Obligations.FmtFix2ShowsTwoDecimals := by
  intro s dots w d dot
  refine ⟨fun ready => ?_, refused_of_formats (.fix2 dots), strictExec_of_noA0 (.fmtFix2 dots)⟩
  have hshown := shows_of_formats (.fix2 dots) ready
  rw [formatFrame, fix2Frame, fix2Value_eq] at hshown
  exact hshown

/-- Settles O35: the digits are those of the two clamped fields. -/
theorem fmtTimeShowsTwoFields : Obligations.FmtTimeShowsTwoFields := by
  intro s colon h m d
  refine ⟨fun ready => ?_, refused_of_formats (.time colon),
    strictExec_of_noArg (.fmtTime colon) (.fmtTime colon)⟩
  have hshown := shows_of_formats (.time colon) ready
  rw [formatFrame, timeFrame, timeField_eq, timeField_eq] at hshown
  exact hshown

/-! ### Frames without a decimal point (R183) -/

/-- Bit 7, the decimal point, is 0 at every position. -/
def NoDots (f : Frame) : Prop :=
  f.b0.getLsbD 7 = false ∧ f.b1.getLsbD 7 = false ∧ f.b2.getLsbD 7 = false ∧ f.b3.getLsbD 7 = false

/-- The decimal points of FRAME as a word. -/
theorem noDots_unpack4_iff (w : Word) :
    NoDots (unpack4 w) ↔
      w.getLsbD 7 = false ∧ w.getLsbD 15 = false ∧ w.getLsbD 23 = false ∧ w.getLsbD 31 = false := by
  simp [unpack4, NoDots]

/-- Glyphs alone light no decimal point, whatever the table. -/
theorem noDots_glyphs (tab : SegTable) (c0 c1 c2 c3 : Byte) :
    NoDots ⟨glyphByte tab c0, glyphByte tab c1, glyphByte tab c2, glyphByte tab c3⟩ :=
  ⟨glyphByte_getLsbD_seven .., glyphByte_getLsbD_seven .., glyphByte_getLsbD_seven ..,
    glyphByte_getLsbD_seven ..⟩

/-- A digit that may be blank lights no decimal point. -/
theorem ite_dig_getLsbD_seven (p : Prop) [Decidable p] (tab : SegTable) (d : Nat) :
    (if p then dig tab d else blankByte).getLsbD 7 = false := by
  split
  · exact glyphByte_getLsbD_seven ..
  · rfl

theorem noDots_intFrame (tab : SegTable) (leadingZero : Bool) (a0 : Word) :
    NoDots (intFrame tab leadingZero a0) :=
  ⟨ite_dig_getLsbD_seven .., ite_dig_getLsbD_seven .., ite_dig_getLsbD_seven .., glyphByte_getLsbD_seven ..⟩

theorem noDots_smallFrame (tab : SegTable) (a0 a1 : Word) : NoDots (smallFrame tab a0 a1) := by
  rcases Nat.lt_or_ge 99 a0.toNat with hbig | hhi
  · exact smallFrame_sentinel tab a1 hbig ▸ noDots_glyphs ..
  rcases Nat.lt_or_ge 9 a0.toNat with hlo | hone
  · exact smallFrame_two_digits tab a1 hlo hhi ▸ noDots_glyphs ..
  · exact smallFrame_one_digit tab a1 hone ▸ noDots_glyphs ..

/-- Settles O36: the three frames are made of glyphs and blanks. -/
theorem plainFormatsShowNoDecimalPoint : Obligations.PlainFormatsShowNoDecimalPoint := by
  intro s t i hi ht
  rw [← noDots_unpack4_iff]
  rcases hi with rfl | ⟨leadingZero, rfl⟩ | rfl
  · exact (frameShown_of_formats .text ht).frame ▸ noDots_glyphs ..
  · exact (frameShown_of_formats (.int leadingZero) ht).frame ▸ noDots_intFrame ..
  · exact (frameShown_of_formats .small ht).frame ▸ noDots_smallFrame ..

end Sys2Proof.Proofs
end

section
/-! PROOF. No command reads the acknowledgement (spec/44_protocol_driver.md R216, R231): every operation on the
state keeps two states the same but for their samples, and so does every command. -/

namespace Sys2Proof.Proofs

open Sys2Proof Sys2Proof.Machine Sys2Proof.Safety

variable {s s' t t' : State} {i : Instr} {r r' : Result}

/-! ### Operations on states that differ by their samples alone -/

/-- The second state is the first with another ACK, another count of draws and other levels sampled. -/
theorem sameButSamples_iff :
    SameButSamples s s' ↔
      ∃ a n tr, tr.map eraseSample = s.trace.map eraseSample ∧
        s' = { s with ack := a, drawn := n, trace := tr } := by
  constructor
  · rintro ⟨hs, htr⟩
    exact ⟨_, _, _, htr, hs⟩
  · rintro ⟨a, n, tr, htr, rfl⟩
    exact ⟨rfl, htr⟩

theorem sameButSamples_setLastS (h : SameButSamples s s') (w : Word) :
    SameButSamples (s.setLastS w) (s'.setLastS w) := by
  obtain ⟨a, n, tr, htr, rfl⟩ := sameButSamples_iff.1 h
  exact ⟨rfl, htr⟩

/-- A line of a pin procedure adds the same event to both traces, `Sample` with a level of its own (R216). -/
theorem sameButSamples_apply (h : SameButSamples s s') (op : PinOp) :
    SameButSamples (op.apply s) (op.apply s') := by
  obtain ⟨a, n, tr, htr, rfl⟩ := sameButSamples_iff.1 h
  cases op with
  | clk | dio | dir | sample => exact ⟨rfl, by simp [PinOp.apply, htr, eraseSample]⟩
  | delay | busOpen => exact ⟨rfl, htr⟩

theorem sameButSamples_runPins (ops : List PinOp) (h : SameButSamples s s') :
    SameButSamples (runPins ops s) (runPins ops s') := by
  induction ops generalizing s s' with
  | nil => exact h
  | cons op ops ih => exact ih (sameButSamples_apply h op)

/-- FRAME and the procedure that sends it are the same, for they read the frame, BRIGHT and the configuration. -/
theorem sameButSamples_showFrame (h : SameButSamples s s') (f : Frame) :
    SameButSamples (showFrame f s) (showFrame f s') := by
  obtain ⟨a, n, tr, htr, rfl⟩ := sameButSamples_iff.1 h
  exact sameButSamples_runPins (writeFrame s.cfg s.bright f) (s := s.setFrame f) ⟨rfl, htr⟩

theorem sameButSamples_initOk (h : SameButSamples s s') (present : Bool) :
    SameButSamples (initOk present s) (initOk present s') := by
  obtain ⟨a, n, tr, htr, rfl⟩ := sameButSamples_iff.1 h
  rw [initOk_eq, initOk_eq]
  exact ⟨rfl, by simp [htr]⟩

/-- A refresh is due in both states or in neither, and shows the same frame (R257). -/
theorem sameButSamples_displayPath (h : SameButSamples s s') :
    SameButSamples (displayPath (unsigned32 s.nowMs) s.telemetry s)
      (displayPath (unsigned32 s'.nowMs) s'.telemetry s') := by
  obtain ⟨a, n, tr, htr, rfl⟩ := sameButSamples_iff.1 h
  by_cases hdue : RefreshDue s
  · have hdue' : RefreshDue { s with ack := a, drawn := n, trace := tr } := hdue
    rw [displayPath_due hdue, displayPath_due hdue']
    exact sameButSamples_setLastS (sameButSamples_showFrame h (tickFrame s)) _
  · have hdue' : ¬ RefreshDue { s with ack := a, drawn := n, trace := tr } := hdue
    rw [displayPath_not_due hdue, displayPath_not_due hdue']
    exact h

theorem sameButSamples_ledPath (h : SameButSamples s s') (now : Nat) (w : Wave) (hs : HealthStatus) :
    SameButSamples (ledPath now w hs s) (ledPath now w hs s') := by
  obtain ⟨a, n, tr, htr, rfl⟩ := sameButSamples_iff.1 h
  exact ⟨rfl, by simp [ledPath, htr]⟩

/-- A tick samples its inputs, and no input is a sample of the data pin (R72, R255). -/
theorem sameButSamples_tick (h : SameButSamples s s') (w : Wave) :
    SameButSamples (tick w s) (tick w s') := by
  have hdisplay := sameButSamples_displayPath h
  obtain ⟨a, n, tr, htr, rfl⟩ := sameButSamples_iff.1 h
  exact sameButSamples_ledPath hdisplay _ w _

/-! ### What a command answers -/

/-- What O46 asks of the next states of one command: RES too is the same, BUS.BYTE excepted (R216). -/
def SameButReply (i : Instr) (t t' : State) : Prop :=
  SameButSamples t { t' with res := t.res } ∧ ((∀ b, i ≠ .busByte b) → t'.res = t.res)

theorem sameButReply_of_sameButSamples (h : SameButSamples t t') : SameButReply i t t' := by
  obtain ⟨a, n, tr, htr, rfl⟩ := sameButSamples_iff.1 h
  exact ⟨⟨rfl, htr⟩, fun _ => rfl⟩

/-- BUS.BYTE may reply with another sample. -/
theorem sameButReply_setRes (h : SameButSamples t t') (b : Byte) (w w' : Word) :
    SameButReply (.busByte b) (t.setRes w) (t'.setRes w') := by
  obtain ⟨a, n, tr, htr, rfl⟩ := sameButSamples_iff.1 h
  exact ⟨⟨rfl, htr⟩, fun hi => absurd rfl (hi b)⟩

/-- Two answers to one command: both next states, the same but for the samples and the reply, or one refusal. -/
inductive Agree (i : Instr) : Result → Result → Prop where
  | next {t t' : State} (h : SameButReply i t t') : Agree i (.next t) (.next t')
  | refused (e : Refusal) : Agree i (.refused e) (.refused e)

theorem agree_of_sameButSamples (h : SameButSamples t t') : Agree i (.next t) (.next t') :=
  .next (sameButReply_of_sameButSamples h)

theorem agree_ite {c : Prop} [Decidable c] {q q' : Result} (hr : Agree i r r') (hq : Agree i q q') :
    Agree i (if c then r else q) (if c then r' else q') := by
  split
  · exact hr
  · exact hq

/-- The shared conditions read STARTED, PRESENT and BUS_OPEN, which are the same in both states (R276). -/
theorem agree_requireStarted (h : SameButSamples s s') (hr : Agree i r r') :
    Agree i (requireStarted s r) (requireStarted s' r') := by
  obtain ⟨a, n, tr, -, rfl⟩ := sameButSamples_iff.1 h
  exact agree_ite hr (.refused _)

@[inherit_doc agree_requireStarted]
theorem agree_requireDisplay (h : SameButSamples s s') (hr : Agree i r r') :
    Agree i (requireDisplay s r) (requireDisplay s' r') := by
  obtain ⟨a, n, tr, -, rfl⟩ := sameButSamples_iff.1 h
  exact agree_ite hr (.refused _)

@[inherit_doc agree_requireStarted]
theorem agree_requireBusIdle (h : SameButSamples s s') (hr : Agree i r r') :
    Agree i (requireBusIdle s r) (requireBusIdle s' r') := by
  obtain ⟨a, n, tr, -, rfl⟩ := sameButSamples_iff.1 h
  exact agree_ite (.refused _) hr

@[inherit_doc agree_requireStarted]
theorem agree_requireBusOpen (h : SameButSamples s s') (hr : Agree i r r') :
    Agree i (requireBusOpen s r) (requireBusOpen s' r') := by
  obtain ⟨a, n, tr, -, rfl⟩ := sameButSamples_iff.1 h
  exact agree_ite hr (.refused _)

theorem agree_whenDisplayIdle (h : SameButSamples s s') (hr : Agree i r r') :
    Agree i (whenDisplayIdle s r) (whenDisplayIdle s' r') :=
  agree_requireStarted h (agree_requireDisplay h (agree_requireBusIdle h hr))

theorem agree_whenDisplayOpen (h : SameButSamples s s') (hr : Agree i r r') :
    Agree i (whenDisplayOpen s r) (whenDisplayOpen s' r') :=
  agree_requireStarted h (agree_requireDisplay h (agree_requireBusOpen h hr))

theorem agree_computeBrightness (h : SameButSamples s s') (w : Wave) :
    Agree i (computeBrightness w s) (computeBrightness w s') := by
  refine agree_requireStarted h (agree_of_sameButSamples ?_)
  obtain ⟨a, n, tr, htr, rfl⟩ := sameButSamples_iff.1 h
  exact ⟨rfl, htr⟩

theorem agree_execSysTick (h : SameButSamples s s') : Agree i (execSysTick s) (execSysTick s') := by
  refine agree_requireStarted h (agree_requireBusIdle h ?_)
  have hwave : tickWave s' = tickWave s := by
    obtain ⟨a, n, tr, -, rfl⟩ := sameButSamples_iff.1 h
    rfl
  rw [hwave]
  cases tickWave s with
  | ok w => exact agree_of_sameButSamples (sameButSamples_tick h w)
  | error e => exact .refused e

/-- Every command answers alike: none but BUS.BYTE returns the sample, and none decides by it. -/
theorem exec_agree (h : SameButSamples s s') (i : Instr) : Agree i (exec i s) (exec i s') := by
  obtain ⟨a, n, tr, htr, rfl⟩ := sameButSamples_iff.1 h
  cases i with
  | sysInit allocOk present =>
    refine agree_requireBusIdle h (agree_of_sameButSamples ?_)
    cases allocOk
    · exact ⟨rfl, htr⟩
    · exact sameButSamples_initOk h present
  | sysTick => exact agree_execSysTick h
  | brtClassic | brtFlow => exact agree_computeBrightness h _
  | brtHeartbeat alert =>
    simp only [exec, execBrtHeartbeat]
    split
    · exact agree_computeBrightness h _
    · exact .refused _
  | color => exact agree_requireStarted h (agree_of_sameButSamples ⟨rfl, htr⟩)
  | rot | enc => exact agree_of_sameButSamples ⟨rfl, htr⟩
  | fmtText | fmtInt | fmtSmall | fmtFixs | fmtFix2 | fmtTime | dispWrite =>
    exact agree_whenDisplayIdle h (agree_of_sameButSamples (sameButSamples_showFrame h _))
  | busStart => exact agree_whenDisplayIdle h (agree_of_sameButSamples (sameButSamples_runPins _ h))
  | busStop => exact agree_whenDisplayOpen h (agree_of_sameButSamples (sameButSamples_runPins _ h))
  | busByte byte =>
    exact agree_whenDisplayOpen h (.next (sameButReply_setRes (sameButSamples_runPins (sendByte byte) h) ..))
  | dispBright =>
    exact agree_requireStarted h (agree_requireDisplay h (agree_of_sameButSamples ⟨rfl, htr⟩))

/-- Settles O46: the two answers of a command agree, so a next state has its partner and a refusal is one of
both. -/
theorem acknowledgementIsNeverRead : Obligations.AcknowledgementIsNeverRead := by
  intro s s' i h
  have hagree := exec_agree h i
  generalize exec i s = r, exec i s' = r' at hagree
  cases hagree with
  | next hreply =>
    refine ⟨?_, by simp⟩
    rintro t ⟨⟩
    exact ⟨_, rfl, hreply⟩
  | refused e => exact ⟨by simp, fun _ hr => hr⟩

end Sys2Proof.Proofs
end

section
/-! PROOF. The protocol driver (spec/44_protocol_driver.md): what its commands leave and spell, the counts of a
byte and of a frame write, and when its commands are refused. -/

namespace Sys2Proof.Proofs

open Sys2Proof Sys2Proof.Machine Sys2Proof.Safety

variable {s : State} {op : PinOp}

/-! ### Refusals (R276 items 3 to 5) -/

/-- The block has no fault, so what answers no next state is refused (R270). -/
theorem refused_of_ne_next {r : Result} (h : ∀ t, r ≠ .next t) : ∃ e, r = .refused e := by
  cases r with
  | next t => exact absurd rfl (h t)
  | fault f => cases f
  | refused e => exact ⟨e, rfl⟩

theorem whenDisplayOpen_refused (h : s.started = false ∨ s.present = false ∨ s.busOpen = false) (t : State) :
    ∃ r, whenDisplayOpen s (.next t) = .refused r := by
  refine refused_of_ne_next fun u hu => ?_
  obtain ⟨⟨hstarted, hpresent, hopen⟩, -⟩ := whenDisplayOpen_next hu
  simp [hstarted, hpresent, hopen] at h

theorem dispBright_refused (h : s.started = false ∨ s.present = false) (level : BitVec 3) :
    ∃ r, exec (.dispBright level) s = .refused r := by
  refine refused_of_ne_next fun u hu => ?_
  obtain ⟨hstarted, hu⟩ := requireStarted_next hu
  obtain ⟨hpresent, -⟩ := requireDisplay_next hu
  simp [hstarted, hpresent] at h

/-! ### BUS.START and BUS.STOP (R212, R214) -/

/-- Between transactions the pins are where the trace left them, idle (R211, R232). -/
theorem pins_idle_of_ready (h : Inv s) (hready : DisplayReady s) : s.pins = .idle := by
  obtain ⟨-, hpresent, hclosed⟩ := hready
  rw [← h.pins_traced hpresent, h.closed_idle hclosed]

theorem exec_busStart (h : DisplayReady s) : exec .busStart s = .next (runPins startCond s) :=
  whenDisplayIdle_of_ready h _

theorem exec_busStop (h : DisplayOpen s) : exec .busStop s = .next (runPins stopCond s) :=
  whenDisplayOpen_of_open h _

theorem symbols_startCond (hidle : (traced s).pins = .idle) :
    symbols (runPins startCond s).trace = symbols s.trace ++ [Symbol.start] := by
  rw [symbols_trace, traced_append (congrArg State.trace (runPins_startCond s)), Decoder.run_start _ hidle,
    symbols_trace]

theorem symbols_stopCond (hout : (traced s).pins.dioDir = .out)
    (hlow : (traced s).pins.clk = false ∨ (traced s).pins.dioOut = false) :
    symbols (runPins stopCond s).trace = symbols s.trace ++ [Symbol.stop] := by
  rw [symbols_trace, traced_append (congrArg State.trace (runPins_stopCond s)), Decoder.run_stop _ hout hlow,
    symbols_trace]

/-- Settles O38: the closed form of the start condition, from the idle pins the invariant finds. -/
theorem busStartOpensTheBus : Obligations.BusStartOpensTheBus := by
  intro s
  refine ⟨exec_busStart, fun hready hinv => ?_, fun hnot => whenDisplayIdle_refused hnot _⟩
  have hpins : s.pins = .idle := pins_idle_of_ready hinv hready
  refine ⟨hpins, _, exec_busStart hready, ?_, symbols_startCond (hinv.closed_idle hready.2.2)⟩
  rw [runPins_startCond, hpins]
  rfl

/-- Settles O39: the closed form of the stop condition, with the data line driven as the invariant says. -/
theorem busStopReturnsToIdle : Obligations.BusStopReturnsToIdle := by
  intro s
  refine ⟨fun hopen => ?_, fun hopen hinv => ?_, fun hnot => whenDisplayOpen_refused hnot _⟩
  · rw [exec_busStop hopen, runPins_stopCond]
    rfl
  · have ⟨_, hpresent, hbus⟩ := hopen
    obtain ⟨hout, hlow⟩ := hinv.open_driven hbus
    refine ⟨_, exec_busStop hopen, ?_, ?_, symbols_stopCond hout hlow⟩
    · rw [runPins_stopCond, ← hinv.pins_traced hpresent, hout]
      rfl
    · rw [runPins_stopCond]

/-! ### BUS.BYTE (R217) -/

theorem exec_busByte (h : DisplayOpen s) (b : Byte) : exec (.busByte b) s = .next (sendByteResult b s) :=
  whenDisplayOpen_of_open h _

theorem toNat_setWidth_ofBool (v : Bool) : ((BitVec.ofBool v).setWidth 32 : Word).toNat = v.toNat := by
  cases v <;> rfl

/-- Settles O40: the closed form of BUS.BYTE, and what the events of a byte spell. -/
theorem busByteSendsLeastSignificantFirst : Obligations.BusByteSendsLeastSignificantFirst := by
  intro s b
  refine ⟨fun hopen => ⟨_, exec_busByte hopen b, ?_⟩, fun hnot => whenDisplayOpen_refused hnot _⟩
  rw [sendByteResult_eq]
  refine ⟨by rw [List.append_assoc]; rfl, toNat_setWidth_ofBool _, fun d hout hbits => ⟨_, rfl, ?_⟩⟩
  rw [Decoder.run_byteEvents b _ d hout hbits]
  exact ⟨rfl, rfl⟩

/-! ### Counts (R218, R227) -/

theorem count_bitCell (h : ∀ v, op ≠ .dio v) (v : Bool) : (bitCell v).count op = (bitCell false).count op := by
  have hdio : ∀ v, (PinOp.dio v == op) = false := fun v => beq_eq_false_iff_ne.2 (h v).symm
  simp [bitCell, List.count_cons, hdio]

/-- Eight bit cells and one ack cell, of which the byte decides the levels of the data line alone. -/
theorem count_sendByte (h : ∀ v, op ≠ .dio v) (b : Byte) :
    (sendByte b).count op = 8 * (bitCell false).count op + ackCell.count op := by
  simp only [sendByte, bitsOfByte, List.flatMap_cons, List.flatMap_nil, List.count_append, List.count_nil,
    count_bitCell h]
  omega

/-- Settles O41: the lines of the two kinds of cell are counted. -/
theorem byteCounts : Obligations.ByteCounts := by
  intro s b
  rw [count_sendByte (by simp), count_sendByte (by simp), count_sendByte (by simp), runPins_sendByte]
  exact ⟨rfl, rfl, rfl, by simp, rfl⟩

/-- Seven bytes, and a start and a stop condition for each transaction. -/
theorem count_writeFrame (h : ∀ v, op ≠ .dio v) (c : Config) (bright : BitVec 3) (f : Frame) :
    (writeFrame c bright f).count op =
      7 * (8 * (bitCell false).count op + ackCell.count op) +
        (if c.splitDataCmd then 3 else 2) * (startCond.count op + stopCond.count op) := by
  cases hsplit : c.splitDataCmd <;>
    simp only [writeFrame, hsplit, List.count_append, List.count_nil, count_sendByte h, if_true,
      if_false, Bool.false_eq_true] <;> omega

/-- Settles O42: the lines of the procedure are counted by its parts, the events by their closed form. -/
theorem frameWriteCounts : Obligations.FrameWriteCounts := by
  intro s f bright
  dsimp only
  rw [runPins_writeFrame]
  have count := fun (op : PinOp) h => count_writeFrame (op := op) h s.cfg bright f
  refine ⟨?_, rfl, ?_, ?_, ?_, ?_, by simp, ?symbols⟩
  case symbols => cases hsplit : s.cfg.splitDataCmd <;> simp [frameSymbols, hsplit]
  all_goals
    rw [count _ (by simp)]
    cases s.cfg.splitDataCmd <;> rfl

/-! ### DISP.WRITE and DISP.BRIGHT (R225, R230) -/

theorem exec_dispWrite (s : State) :
    exec .dispWrite s = whenDisplayIdle s (.next (showFrame (unpack4 s.a0) s)) := rfl

/-- Settles O44: the bytes of A0 are the frame shown, and packed again they are A0. -/
theorem dispWriteSendsTheFrameAsGiven : Obligations.DispWriteSendsTheFrameAsGiven := by
  intro s
  rw [exec_dispWrite]
  refine ⟨fun ready => ⟨showFrame (unpack4 s.a0) s, whenDisplayIdle_of_ready ready _, ?_, ?_⟩,
    fun hnot => whenDisplayIdle_refused hnot _, strictExec_of_noA0 .dispWrite⟩
  · rw [showFrame_eq, pack4_unpack4]
  · exact frameShown_showFrame (unpack4 s.a0) s

theorem exec_dispBright (hstarted : s.started = true) (hpresent : s.present = true) (level : BitVec 3) :
    exec (.dispBright level) s = .next (s.setBright level) := by
  simp [exec, execDispBright, hstarted, hpresent]

/-- A frame write ends with the transaction of the control byte (R226). -/
theorem control_suffix_frameSymbols (c : Config) (bright : BitVec 3) (f : Frame) :
    [.start, .byte (controlByte bright), .stop] <:+ frameSymbols c bright f :=
  .trans ⟨[.byte cmdAddr0, .byte f.b0, .byte f.b1, .byte f.b2, .byte f.b3, .stop], rfl⟩
    (List.suffix_append _ _)

/-- Settles O45: BRIGHT alone is written, and the next frame write ends with the control byte of BRIGHT. -/
theorem dispBrightSetsTheNextControlByte : Obligations.DispBrightSetsTheNextControlByte := by
  intro s level
  refine ⟨fun hstarted hpresent => ⟨_, exec_dispBright hstarted hpresent level, rfl, ?_⟩,
    fun hnot => dispBright_refused hnot level⟩
  intro hclosed hidle i hi
  have hready : DisplayReady (s.setBright level) := ⟨hstarted, hpresent, hclosed⟩
  obtain ⟨u, f, hu, hshown⟩ := exec_of_writesFrame hready hi
  obtain ⟨before, hends⟩ := control_suffix_frameSymbols s.cfg level f
  refine ⟨u, hu, symbols s.trace ++ before, ?_⟩
  rw [symbols_trace, traced_of_frameShown hshown hidle, List.append_assoc, ← controlByte_eq, hends]
  rfl

end Sys2Proof.Proofs
end

section
/-! PROOF. The system commands (spec/45_system.md): what runs on a block that is not started, what SYS.INIT
leaves, when SYS.TICK is refused, and what its display path and its LED path do. -/

namespace Sys2Proof.Proofs

open Sys2Proof Sys2Proof.Machine Sys2Proof.Safety

variable {s s' t : State} {i : Instr} {w : Wave}

/-- The block has no fault, so a command is refused where it has no next state (R270). -/
theorem exists_refused_iff (r : Result) : (∃ e, r = .refused e) ↔ ¬ ∃ t, r = .next t := by
  constructor
  · rintro ⟨e, rfl⟩ ⟨t, ht⟩
    cases ht
  · intro h
    exact refused_of_ne_next fun t ht => h ⟨t, ht⟩

/-! ### A block that is not started (R251) -/

/-- A command that runs, other than SYS.INIT, ENC and ROT, found the block started. -/
theorem started_of_exec (hi : worksUnstarted i = false) (h : exec i s = .next t) : s.started = true := by
  cases i with
  | sysInit | rot | enc => cases hi
  | brtHeartbeat =>
    simp only [exec, execBrtHeartbeat] at h
    split at h
    · exact (requireStarted_next h).1
    · cases h
  | sysTick | brtClassic | brtFlow | color | fmtText | fmtInt | fmtSmall | fmtFixs | fmtFix2 | fmtTime
  | busStart | busStop | busByte | dispWrite | dispBright => exact (requireStarted_next h).1

theorem refused_of_unstarted (h : s.started = false) (hi : worksUnstarted i = false) :
    ∃ r, exec i s = .refused r := by
  refine refused_of_ne_next fun t ht => ?_
  simp [started_of_exec hi ht] at h

/-- Settles O15: whatever passes the shared conditions found the block started; ENC and ROT have none. -/
theorem unstartedBlockRefusesAllButThree : Obligations.UnstartedBlockRefusesAllButThree := by
  refine ⟨?failed, fun _ _ => refused_of_unstarted, fun s c _ => ⟨⟨_, exec_enc c s⟩, ⟨_, exec_rot s⟩⟩⟩
  case failed =>
    intro s t present h
    obtain ⟨-, h⟩ := requireBusIdle_next h
    cases h
    exact ⟨rfl, rfl⟩

/-! ### SYS.INIT (R250) -/

theorem exec_sysInit_of_closed (h : s.busOpen = false) (allocOk present : Bool) :
    exec (.sysInit allocOk present) s = .next (if allocOk then initOk present s else initFailed s) :=
  requireBusIdle_of_closed h _

theorem exec_sysInit_of_open (h : s.busOpen = true) (allocOk present : Bool) :
    exec (.sysInit allocOk present) s = .refused .busOpen := by
  simp [exec, execSysInit, requireBusIdle, h]

/-- The three pin events of SYS.INIT are no symbol on an idle bus (R228, R250). -/
theorem symbols_initOk (hidle : (traced s).pins = .idle) (present : Bool) :
    symbols (initOk present s).trace = symbols s.trace := by
  rw [symbols_trace, symbols_trace, initOk_eq, traced_append rfl]
  cases present with
  | false => rfl
  | true => exact congrArg Decoder.out (run_idleEvents hidle)

/-- Settles O48: the closed form of `initOk`, and `initFailed` as it is. -/
theorem sysInitStartsOrStopsTheBlock : Obligations.SysInitStartsOrStopsTheBlock := by
  intro s present
  refine ⟨fun hclosed => ⟨_, exec_sysInit_of_closed hclosed true present, ?_, fun hidle => ?_⟩,
    fun hclosed => exec_sysInit_of_closed hclosed false present,
    fun allocOk hopen => exec_sysInit_of_open hopen allocOk present,
    strictExec_of_noA0 (.sysInit present)⟩
  · rw [if_pos rfl, initOk_eq, u8, BitVec.setWidth_eq_extractLsb' (by decide)]
    rfl
  · exact symbols_initOk hidle present

/-! ### When a tick runs (R256) -/

/-- A tick runs unless one of the four conditions holds. -/
theorem exec_sysTick_next_iff (s : State) :
    (∃ t, exec .sysTick s = .next t) ↔
      ¬ (s.started = false ∨ s.busOpen = true ∨ s.mode = 3#2 ∨ (s.mode = 2#2 ∧ s.alert = 3#2)) := by
  have hwave := tickWave_ok_iff s
  constructor
  · rintro ⟨t, h⟩
    obtain ⟨hstarted, hclosed, w, hw, -⟩ := execSysTick_next h
    simpa [hstarted, hclosed] using hwave.1 ⟨w, hw⟩
  · intro h
    obtain ⟨hstarted, hrest⟩ := not_or.1 h
    obtain ⟨hclosed, hinputs⟩ := not_or.1 hrest
    obtain ⟨w, hw⟩ := hwave.2 hinputs
    exact ⟨_, execSysTick_of_wave (by simpa using hstarted) (by simpa using hclosed) hw⟩

/-- Settles O49: the two shared conditions and a waveform are all that a tick needs. -/
theorem tickIsRefusedExactlyWhenTheRuleSays : Obligations.TickIsRefusedExactlyWhenTheRuleSays := by
  intro s
  refine ⟨?_, exec_sysTick_next_iff s⟩
  rw [exists_refused_iff, exec_sysTick_next_iff, not_not]

/-! ### The rate limit (R257) -/

/-- No display, or the second of the last refresh. -/
theorem not_refreshDue_iff :
    ¬ RefreshDue s ↔ s.present = false ∨ (s.lastValid = true ∧ s.lastS.toNat = s.nowMs.toNat / 1000) := by
  rw [RefreshDue, not_and_or, not_or, Bool.not_eq_true, Bool.not_eq_false, ne_eq, not_not]

/-! ### The events of a tick (R255, R257, R258) -/

/-- None of the events is one of the LED's (R40). -/
def NoLedEvents (es : List Event) : Prop := ∀ e ∈ es, e ≠ .ledShow ∧ ∀ r g b, e ≠ .ledSet r g b

@[simp] theorem noLedEvents_append (xs ys : List Event) :
    NoLedEvents (xs ++ ys) ↔ NoLedEvents xs ∧ NoLedEvents ys := List.forall_mem_append

@[simp] theorem noLedEvents_nil : NoLedEvents [] := by simp [NoLedEvents]

@[simp] theorem noLedEvents_dio_cons (v : Bool) (es : List Event) :
    NoLedEvents (.dio v :: es) ↔ NoLedEvents es := by simp [NoLedEvents]

@[simp] theorem noLedEvents_stopEvents : NoLedEvents stopEvents := by simp [NoLedEvents, stopEvents]

/-- A byte is eight bit cells and an ack cell (R217). -/
@[simp] theorem noLedEvents_byteEvents (b : Byte) (a : Bool) : NoLedEvents (byteEvents b a) := by
  have hbit : ∀ v, NoLedEvents (bitEvents v) := by simp [NoLedEvents, bitEvents]
  have hack : NoLedEvents (ackEvents a) := by simp [NoLedEvents, ackEvents]
  refine (noLedEvents_append _ _).2 ⟨fun e he => ?_, hack⟩
  obtain ⟨v, -, hv⟩ := List.mem_flatMap.1 he
  exact hbit v e hv

/-- A frame write is starts, bytes and stops (R226). -/
theorem noLedEvents_frameEvents (c : Config) (bright : BitVec 3) (f : Frame) (n : Nat) :
    NoLedEvents (frameEvents c bright f n) := by
  cases hsplit : c.splitDataCmd <;> simp [frameEvents, hsplit]

/-- The pin events of a tick: one frame write where a refresh is due, else none (R257). -/
def tickPinEvents (s : State) : List Event :=
  if s.present && refreshDue s (wholeSeconds (unsigned32 s.nowMs)) then
    frameEvents s.cfg s.bright (tickFrame s) s.drawn
  else []

theorem tickPinEvents_due (h : RefreshDue s) :
    tickPinEvents s = frameEvents s.cfg s.bright (tickFrame s) s.drawn := if_pos ((refreshDue_iff s).2 h)

theorem tickPinEvents_not_due (h : ¬ RefreshDue s) : tickPinEvents s = [] :=
  if_neg fun hdue => h ((refreshDue_iff s).1 hdue)

theorem noLedEvents_tickPinEvents (s : State) : NoLedEvents (tickPinEvents s) := by
  by_cases h : RefreshDue s
  · rw [tickPinEvents_due h]
    exact noLedEvents_frameEvents _ _ _ _
  · rw [tickPinEvents_not_due h]
    exact noLedEvents_nil

theorem tickPinEvents_length (s : State) :
    tickPinEvents s = [] ∨ (tickPinEvents s).length = if s.cfg.splitDataCmd then 225 else 220 := by
  by_cases h : RefreshDue s
  · exact .inr (by rw [tickPinEvents_due h, frameEvents_length])
  · exact .inl (tickPinEvents_not_due h)

/-- The colour is set once and then committed once, after the pin events (R258, R259). -/
theorem tick_trace (w : Wave) (s : State) :
    (tick w s).trace =
      s.trace ++ tickPinEvents s ++
        [.ledSet (tick w s).ledR (tick w s).ledG (tick w s).ledB, .ledShow] := by
  by_cases h : RefreshDue s
  · rw [tick_due w h, tickPinEvents_due h]
  · rw [tick_not_due w h, tickPinEvents_not_due h, List.append_nil]

/-! ### The LED path (R258) -/

/-- A packed colour as RES shows it (R150). -/
theorem rgb_pack_eq (c : Rgb) :
    c.pack = BitVec.ofNat 32 (c.r.toNat * 65536 + c.g.toNat * 256 + c.b.toNat) := by
  rw [← Rgb.pack_toNat, BitVec.ofNat_toNat, BitVec.setWidth_eq]

/-- COLOR reads back the byte that a BRT command left in RES (R121, R150). -/
theorem u8_setWidth (b : Byte) : u8 (b.setWidth 32) = b := by
  rw [u8, BitVec.setWidth_setWidth_of_le _ (by decide), BitVec.setWidth_eq]

/-- The waveform of a tick is that of the BRT command of its mode, with the power for A1 (R258). -/
theorem tickWave_eq_of_brt
    (hi : (s.mode = 0#2 ∧ i = .brtClassic) ∨ (s.mode = 1#2 ∧ i = .brtFlow) ∨
      (s.mode = 2#2 ∧ s.alert ≠ 3#2 ∧ i = .brtHeartbeat s.alert)) :
    ∃ w, tickWave s = .ok w ∧ ∀ u : State, u.a1 = s.powerW → exec i u = computeBrightness w u := by
  rcases hi with ⟨hmode, rfl⟩ | ⟨hmode, rfl⟩ | ⟨hmode, halert, rfl⟩
  · exact ⟨.classic, by simp [tickWave, hmode, animationMode], fun _ _ => rfl⟩
  · refine ⟨.flow (signed32 s.powerW), by simp [tickWave, hmode, animationMode], fun u hu => ?_⟩
    rw [← hu]
    rfl
  · obtain ⟨a, ha⟩ := alertLevel_of_ne halert
    exact ⟨.heartbeat a, by simp [tickWave, hmode, animationMode, ha], fun u _ => exec_brtHeartbeat ha u⟩

/-- A BRT command on the sampled time computes the brightness of the tick, and leaves the block started with
its maximum (R121, R258). -/
theorem computeBrightness_sampled (w : Wave) (h : s.started = true) :
    ∃ u, computeBrightness w { s with a0 := s.nowMs, a1 := s.powerW } = .next u ∧ u.brt = tickBrt w s ∧
      u.res = (tickBrt w s).setWidth 32 ∧ u.started = true ∧ u.maxBrightness = s.maxBrightness := by
  obtain ⟨u, hu, honly, hres, hbrt⟩ :=
    computeBrightness_next (s := { s with a0 := s.nowMs, a1 := s.powerW }) w h
  have hsame : u.brt = tickBrt w s :=
    BitVec.eq_of_toNat_eq (by rw [hbrt, tickBrt, brightnessByte_toNat])
  exact ⟨u, hu, hsame, hsame ▸ hres, by rw [honly, h], by rw [honly]⟩

/-- Settles O50: the waveform of the tick is that of the BRT command, and `selectColor` is COLOR's. -/
theorem tickLedPathIsBrightnessThenColor : Obligations.TickLedPathIsBrightnessThenColor := by
  intro s i hstarted hclosed hi
  obtain ⟨w, hw, hexec⟩ := tickWave_eq_of_brt hi
  obtain ⟨u, hu, hbrt, hres, hustarted, hmax⟩ := computeBrightness_sampled w hstarted
  obtain ⟨htbrt, hr, hg, hb⟩ := tick_led w s
  refine ⟨tick w s, u, _, tickPinEvents s, execSysTick_of_wave hstarted hclosed hw, (hexec _ rfl).trans hu,
    exec_color_of_started (s := { u with a0 := u.res }) hustarted s.health, htbrt.trans hbrt.symm, ?_,
    tick_trace w s, noLedEvents_tickPinEvents s⟩
  rw [State.setRes_res, hres, u8_setWidth, hmax, hr, hg, hb, ← rgb_pack_eq, tickRgb]

/-! ### The display path (R257) -/

theorem slotMetric_of_mem {slot : Nat} {metric : Metric}
    (h : (slot / 4, metric) ∈
      ([(0, .charge), (1, .voltage), (2, .current), (3, .capacity)] : List (Nat × Metric))) :
    slotMetric slot = metric := by
  simp only [List.mem_cons, Prod.mk.injEq, List.not_mem_nil, or_false] at h
  rcases h with ⟨hslot, rfl⟩ | ⟨hslot, rfl⟩ | ⟨hslot, rfl⟩ | ⟨hslot, rfl⟩ <;>
    simp [slotMetric, metricCode, hslot]

/-- Settles O51: the display path shows the frame of the planned command, or does nothing. -/
theorem tickRefreshesOncePerSecond : Obligations.TickRefreshesOncePerSecond := by
  intro s t h sec slot kind led
  obtain ⟨-, -, w, -, rfl⟩ := execSysTick_next h
  obtain ⟨hbrt, hr, hg, hb⟩ := tick_led w s
  simp only [led, hbrt, hr, hg, hb]
  refine ⟨fun hpresent hnew metric hmetric => ?due, fun hold => ?notDue⟩
  case due =>
    have hframe : tickFrame s = formatFrame s.cfg.seg
        (rotPlan s.cfg.rotPlan kind metric ⟨s.charge, s.voltDv, s.currDa, s.capWh⟩) := by
      rw [← slotMetric_of_mem hmetric]
      rfl
    rw [← hframe]
    refine ⟨showFrame (tickFrame s) s, frameShown_showFrame _ s, ?_⟩
    rw [tick_due w ⟨hpresent, hnew⟩, showFrame_eq]
  case notDue => rw [tick_not_due w (not_refreshDue_iff.2 hold)]

/-! ### The laws (R259) -/

theorem tick_busOpen (h : s.busOpen = false) : (tick w s).busOpen = false := by
  by_cases hdue : RefreshDue s
  · rw [tick_due w hdue]
  · rw [tick_not_due w hdue]
    exact h

theorem tick_pins_idle (h : s.pins = .idle) : (tick w s).pins = .idle := by
  by_cases hdue : RefreshDue s
  · rw [tick_due w hdue]
  · rw [tick_not_due w hdue]
    exact h

/-- For ERROR the colour is full red whatever the brightness (R150, R259). -/
theorem tickRgb_error (h : s.health = 2#2) : tickRgb w s = ⟨s.maxBrightness, 0, 0⟩ := by
  simp [tickRgb, h, healthStatus, selectColor]

/-- After a tick no refresh is due in the same second (R257). -/
theorem not_refreshDue_after_tick (hpresent : s.present = true) (hlast : s'.lastS = (tick w s).lastS)
    (hvalid : s'.lastValid = (tick w s).lastValid)
    (hsec : s'.nowMs.toNat / 1000 = s.nowMs.toNat / 1000) : ¬ RefreshDue s' := by
  refine not_refreshDue_iff.2 (.inr ?_)
  rw [hvalid, hlast, hsec]
  by_cases hdue : RefreshDue s
  · rw [tick_due w hdue]
    have := s.nowMs.isLt
    exact ⟨rfl, by rw [BitVec.toNat_ofNat]; omega⟩
  · rw [tick_not_due w hdue]
    exact (not_refreshDue_iff.1 hdue).resolve_left (by simp [hpresent])

/-- The waveform depends on MODE, ALERT and POWER_W alone (R258). -/
theorem tickWave_congr (hmode : s'.mode = s.mode) (halert : s'.alert = s.alert)
    (hpower : s'.powerW = s.powerW) : tickWave s' = tickWave s := by
  rw [tickWave, tickWave, hmode, halert, hpower]

/-- The brightness depends on the waveform, NOW_MS, MAX_BRIGHTNESS and the configuration alone (R258). -/
theorem tickBrt_congr (hnow : s'.nowMs = s.nowMs) (hmax : s'.maxBrightness = s.maxBrightness)
    (hcfg : s'.cfg = s.cfg) : tickBrt w s' = tickBrt w s := by
  rw [tickBrt, tickBrt, hnow, hmax, hcfg]

/-- Settles O53: each law is one of the two paths', which neither reads what an earlier tick left of the LED. -/
theorem tickLaws : Obligations.TickLaws := by
  refine ⟨?each, ?second, ?memoryless⟩
  case each =>
    intro s t h
    obtain ⟨hstarted, hclosed, w, -, rfl⟩ := execSysTick_next h
    obtain ⟨-, hr, hg, hb⟩ := tick_led w s
    refine ⟨tickPinEvents s, tick_trace w s, noLedEvents_tickPinEvents s, tickPinEvents_length s,
      fun habsent => tickPinEvents_not_due (not_refreshDue_iff.2 (.inl habsent)), tick_busOpen hclosed,
      tick_pins_idle,
      fun hinv hpresent => tick_pins_idle (pins_idle_of_ready hinv ⟨hstarted, hpresent, hclosed⟩),
      fun herror => ?_⟩
    rw [hr, hg, hb, tickRgb_error herror]
    exact ⟨rfl, rfl, rfl⟩
  case second =>
    intro s t s' t' h h' hpresent hlast hvalid hsec
    obtain ⟨-, -, w, -, rfl⟩ := execSysTick_next h
    obtain ⟨-, -, w', -, rfl⟩ := execSysTick_next h'
    have hnone := tickPinEvents_not_due (not_refreshDue_after_tick hpresent hlast hvalid hsec)
    rw [tick_trace, hnone, List.append_nil]
  case memoryless =>
    intro s t s' t' h h' hnow hmode halert hhealth hpower hmax hcfg
    obtain ⟨-, -, w, hw, rfl⟩ := execSysTick_next h
    obtain ⟨-, -, w', hw', rfl⟩ := execSysTick_next h'
    obtain rfl : w' = w := by simpa [tickWave_congr hmode halert hpower, hw] using hw'.symm
    have hbrt : tickBrt w' s' = tickBrt w' s := tickBrt_congr hnow hmax hcfg
    have hrgb : tickRgb w' s' = tickRgb w' s := by rw [tickRgb, tickRgb, hmax, hhealth, hbrt]
    obtain ⟨hb, hr, hg, hbl⟩ := tick_led w' s
    obtain ⟨hb', hr', hg', hbl'⟩ := tick_led w' s'
    rw [hb, hr, hg, hbl, hb', hr', hg', hbl', hbrt, hrgb]
    exact ⟨rfl, rfl, rfl, rfl⟩

end Sys2Proof.Proofs
end

section
/-! PROOF. The exceptions (spec/60_exceptions.md): the commands run exactly where R276 names no refusal, and the
millisecond counter wraps (R281). -/

namespace Sys2Proof.Proofs

open Sys2Proof Sys2Proof.Machine Sys2Proof.Safety

variable {s : State} {i : Instr}

/-! ### When a shared condition lets a command run -/

theorem requireStarted_runs_iff (s t : State) :
    (∃ u, requireStarted s (.next t) = .next u) ↔ s.started = true :=
  ⟨fun ⟨_, hu⟩ => (requireStarted_next hu).1, fun h => ⟨t, requireStarted_of_started h _⟩⟩

theorem requireBusIdle_runs_iff (s t : State) :
    (∃ u, requireBusIdle s (.next t) = .next u) ↔ s.busOpen = false :=
  ⟨fun ⟨_, hu⟩ => (requireBusIdle_next hu).1, fun h => ⟨t, requireBusIdle_of_closed h _⟩⟩

theorem whenDisplayIdle_runs_iff (s t : State) :
    (∃ u, whenDisplayIdle s (.next t) = .next u) ↔ DisplayReady s :=
  ⟨fun ⟨_, hu⟩ => (whenDisplayIdle_next hu).1, fun h => ⟨t, whenDisplayIdle_of_ready h _⟩⟩

theorem whenDisplayOpen_runs_iff (s t : State) :
    (∃ u, whenDisplayOpen s (.next t) = .next u) ↔ DisplayOpen s :=
  ⟨fun ⟨_, hu⟩ => (whenDisplayOpen_next hu).1, fun h => ⟨t, whenDisplayOpen_of_open h _⟩⟩

/-! ### Where R276 names no refusal -/

/-- Each condition that R276 items 3 to 6 put on the command is fulfilled. -/
def ConditionsMet (i : Instr) (s : State) : Prop :=
  (worksUnstarted i = false → s.started = true) ∧
  (isDisplayCommand i = true → s.present = true) ∧
  (needsBusClosed i = true → s.busOpen = false) ∧
  (needsBusOpen i = true → s.busOpen = true) ∧
  (i = .sysTick → ¬ (s.mode = 3#2 ∨ (s.mode = 2#2 ∧ s.alert = 3#2)))

theorem not_specRefuses_iff : ¬ SpecRefuses i s ↔ argsHeld i s = true ∧ ConditionsMet i s := by
  constructor
  · intro h
    refine ⟨?args, fun hi => ?started, fun hi => ?display, fun hi => ?closed, fun hi => ?opened, ?inputs⟩
    case args =>
      by_contra hargs
      rcases (argsHeld_eq_false_iff i s).1 (by simpa using hargs) with ⟨hi, ha0⟩ | ⟨hi, ha1⟩
      · exact h (.noA0 ha0 hi)
      · exact h (.noA1 ha1 hi)
    case started => exact Bool.of_not_eq_false fun hs => h (.notStarted hs hi)
    case display => exact Bool.of_not_eq_false fun hp => h (.noDisplay hp hi)
    case closed => exact Bool.of_not_eq_true fun hb => h (.busOpen hb hi)
    case opened => exact Bool.of_not_eq_false fun hb => h (.busClosed hb hi)
    case inputs =>
      rintro hi (hm | ⟨hm, ha⟩)
      · exact h (.reservedMode hm hi)
      · exact h (.reservedAlert hm ha hi)
  · rintro ⟨hargs, hstarted, hdisplay, hclosed, hopened, hinputs⟩ hrefuses
    have hcolumns : ¬ ((A0Column i ∧ s.held.a0 = false) ∨ (A1Column i ∧ s.held.a1 = false)) := by
      simp [← argsHeld_eq_false_iff, hargs]
    cases hrefuses with
    | noA0 h hi => exact hcolumns (.inl ⟨hi, h⟩)
    | noA1 h hi => exact hcolumns (.inr ⟨hi, h⟩)
    | notStarted h hi => simp [hstarted hi] at h
    | noDisplay h hi => simp [hdisplay hi] at h
    | busOpen h hi => simp [hclosed hi] at h
    | busClosed h hi => simp [hopened hi] at h
    | reservedMode h hi => exact hinputs hi (.inl h)
    | reservedAlert h ha hi => exact hinputs hi (.inr ⟨h, ha⟩)

/-! ### Where a command runs -/

/-- BRT.HEARTBEAT of a legal alert needs a started block (R121, R133). -/
theorem exec_brtHeartbeat_runs_iff {alert : BitVec 2} (h : alert ≠ 3#2) (s : State) :
    (∃ u, exec (.brtHeartbeat alert) s = .next u) ↔ s.started = true := by
  obtain ⟨a, ha⟩ := alertLevel_of_ne h
  rw [exec_brtHeartbeat ha]
  exact requireStarted_runs_iff s _

/-- DISP.BRIGHT needs a started block and a display, whatever the bus (R230). -/
theorem exec_dispBright_runs_iff (level : BitVec 3) (s : State) :
    (∃ u, exec (.dispBright level) s = .next u) ↔ s.started = true ∧ s.present = true := by
  constructor
  · rintro ⟨u, hu⟩
    obtain ⟨hstarted, hu⟩ := requireStarted_next hu
    exact ⟨hstarted, (requireDisplay_next hu).1⟩
  · rintro ⟨hstarted, hpresent⟩
    exact ⟨_, exec_dispBright hstarted hpresent level⟩

/-- Command by command, what its meaning requires is what the items put on it. -/
theorem exec_runs_iff (hi : i.wellFormed = true) : (∃ t, exec i s = .next t) ↔ ConditionsMet i s := by
  unfold ConditionsMet worksUnstarted isDisplayCommand needsBusClosed needsBusOpen
  cases i with
  | sysInit => exact (requireBusIdle_runs_iff s _).trans (by simp)
  | sysTick => exact (exec_sysTick_next_iff s).trans (by simp)
  | brtHeartbeat alert =>
    have halert : alert ≠ 3#2 := by simpa [Instr.wellFormed] using hi
    exact (exec_brtHeartbeat_runs_iff halert s).trans (by simp)
  | brtClassic | brtFlow | color => exact (requireStarted_runs_iff s _).trans (by simp)
  | rot | enc => exact iff_of_true ⟨_, rfl⟩ (by simp)
  | fmtText | fmtInt | fmtSmall | fmtFixs | fmtFix2 | fmtTime | busStart | dispWrite =>
    exact (whenDisplayIdle_runs_iff s _).trans (by simp [DisplayReady])
  | busStop | busByte => exact (whenDisplayOpen_runs_iff s _).trans (by simp [DisplayOpen])
  | dispBright level => exact (exec_dispBright_runs_iff level s).trans (by simp)

/-- The strict machine is the machine where the arguments hold values. -/
theorem strictExec_of_held (h : argsHeld i s = true) : strictExec i s = exec i s := if_pos h

theorem strictExec_runs_iff (i : Instr) (s : State) :
    (∃ t, strictExec i s = .next t) ↔ argsHeld i s = true ∧ ∃ t, exec i s = .next t := by
  cases hargs : argsHeld i s with
  | true => simp [strictExec_of_held hargs]
  | false => simp [strictExec_of_unheld hargs]

/-- Settles O14: both sides say that the arguments hold values and that the command's conditions are met. -/
theorem commandsRunExactlyWhereTheSpecAllows : Obligations.CommandsRunExactlyWhereTheSpecAllows := by
  intro i s hi
  rw [strictExec_runs_iff, exec_runs_iff hi, not_specRefuses_iff]
  refine ⟨Iff.rfl, fun ⟨hargs, hmet⟩ => ?_⟩
  obtain ⟨t, ht⟩ := (exec_runs_iff hi).2 hmet
  exact ⟨t, ht, (strictExec_of_held hargs).trans ht⟩

/-! ### The millisecond counter (R281) -/

theorem elapseMs_toNat (ms : Nat) (s : State) :
    (elapseMs ms s).nowMs.toNat = (s.nowMs.toNat + ms) % 2 ^ 32 := by
  rw [elapseMs, BitVec.toNat_add, BitVec.toNat_ofNat, Nat.add_mod_mod]

/-- Settles O12: the milliseconds are added to the counter modulo its 32 bits. -/
theorem counterAdvancesAndWraps : Obligations.CounterAdvancesAndWraps := by
  intro s rest ms h
  refine ⟨elapseMs ms { s with pending := rest }, ?_, rfl, elapseMs_toNat ms { s with pending := rest }⟩
  rw [step, takeAction_cons _ h, performAction]

end Sys2Proof.Proofs
end

section
/-! PROOF. Reset and hazards (spec/70_reset_and_hazards.md): a decimal number rounded up to its word keeps its last
digit through a truncation (R304), and what power-on leaves (R290). -/

namespace Sys2Proof.Proofs

open Sys2Proof Sys2Proof.Machine Sys2Proof.Safety

variable {s : State} {i : Instr} {k den : Nat}

/-! ### Decimal numbers through the truncation (R181, R304) -/

/-- Rounding up overshoots `k / den` by less than one unit of the word, and `den` such units are no more than 1:
multiplying by `den` and truncating gives `k` back. -/
theorem qWord_toInt_mul_ediv (hden : 0 < den) (hsmall : den ≤ 65536) (h : k < 32768 * den) :
    (qWord k den).toInt * den / 65536 = k := by
  rw [qWord_toInt hden hsmall h]
  have hsplit := Int.ediv_mul_add_emod ((k : Int) * 65536 + (den - 1)) den
  have hrem := Int.emod_nonneg ((k : Int) * 65536 + (den - 1)) (b := den) (by omega)
  have hrem_lt := Int.emod_lt_of_pos ((k : Int) * 65536 + (den - 1)) (b := den) (by omega)
  generalize ((k : Int) * 65536 + (den - 1)) / den * den = product at *
  omega

theorem fixsMagnitude_of_toInt_mul_ediv {w : Word} (h : w.toInt * 10 / 65536 = k) : fixsMagnitude w = k := by
  rw [fixsMagnitude, signed32]
  omega

/-- Settles O37: tenths and hundredths are the two scales of `qWord_toInt_mul_ediv`; 6553 is 0.1 rounded down. -/
theorem decimalsRoundedUpKeepTheirLastDigit : Obligations.DecimalsRoundedUpKeepTheirLastDigit := by
  have htenths (k : Nat) (hk : k < 327680) : (qWord k 10).toInt * 10 / 65536 = k :=
    qWord_toInt_mul_ediv (by decide) (by decide) hk
  have hhundredths (k : Nat) (hk : k < 3276800) : (qWord k 100).toInt * 100 / 65536 = k :=
    qWord_toInt_mul_ediv (by decide) (by decide) hk
  refine ⟨fun k hk => fixsMagnitude_of_toInt_mul_ediv (htenths k hk), fun k hk => ?_, hhundredths,
    by decide, by decide⟩
  rw [fix2Value_eq, hhundredths k (by omega)]
  omega

/-! ### After power-on (R290) -/

/-- SYS.INIT asks for no more than a closed bus, ENC and ROT for nothing (R155, R165, R250). -/
theorem runs_of_worksUnstarted (hclosed : s.busOpen = false) (hi : worksUnstarted i = true) :
    ∃ t, exec i s = .next t := by
  cases i with
  | sysInit allocOk present => exact ⟨_, exec_sysInit_of_closed hclosed allocOk present⟩
  | enc c => exact ⟨_, exec_enc c s⟩
  | rot => exact ⟨_, exec_rot s⟩
  | _ => cases hi

/-- Of a block that is not started, with the bus closed, SYS.INIT, ENC and ROT run and nothing else (R251). -/
theorem unstarted_commands (hstarted : s.started = false) (hclosed : s.busOpen = false) :
    (∀ i, worksUnstarted i = true → ∃ t, exec i s = .next t) ∧
    (∀ i, worksUnstarted i = false → ∃ r, exec i s = .refused r) :=
  ⟨fun _ => runs_of_worksUnstarted hclosed, fun _ => refused_of_unstarted hstarted⟩

theorem step_of_powerOn {rest : List Action} (h : s.pending = .powerOn :: rest) :
    step s = .next (powerOn { s with pending := rest }) := by
  rw [step, takeAction_cons _ h, performAction]

/-- Settles O13: both power-ons write the registers by `State.powerOnWith`, and with no action a step is idle. -/
theorem powerOnLeavesTheBlockNotStarted : Obligations.PowerOnLeavesTheBlockNotStarted := by
  refine ⟨fun c => ⟨⟨⟨rfl, rfl, rfl, rfl, rfl, rfl⟩, unstarted_commands rfl rfl⟩, rfl, takeAction_nil _ rfl⟩,
    fun s rest h => ⟨powerOn { s with pending := rest }, step_of_powerOn h, ?_, rfl, rfl⟩,
    fun s h => takeAction_nil _ h⟩
  exact ⟨⟨rfl, rfl, rfl, rfl, rfl, rfl⟩, unstarted_commands rfl rfl⟩

end Sys2Proof.Proofs
end
